-- ==== Sys2Proof/Word.lean ====
section
/-! DEFINITION. The command word (rule R60) and the two ways a word can be read (rule R12). -/

namespace Sys2Proof

/-- One command word: `W = 32` bits, bit 0 least significant (rules R5 and R60, conflict C1, decision D1). -/
abbrev Word := BitVec 32

/-- The escape state ESC of rule R12, which decides how the next word is read (rule R64). -/
inductive EscState where
  /-- The next word is read by its fields (format P). -/
  | normal
  /-- The previous word was an escape marker: the next word is taken whole as a time amount (format R). -/
  | escapePending
deriving DecidableEq, Repr

end Sys2Proof
end

