-- ==== Sys2Proof/Config.lean ====
section
/-! DEFINITION. The parameters of rule R4: the fixed ones, the defaults of the two sampled at reset, the type of the
open capacity N, and the open byte order of a front end that is outside the block. -/

namespace Sys2Proof.Config

/-- `W` (WORD_WIDTH), rule R4: bits in one command word. -/
def wordWidth : Nat := 32

/-- `DT_ESC`, rule R4: the `dt` value reserved as the escape marker, all nine bits set. -/
def dtEsc : BitVec 9 := 511

/-- `F`'s default, rule R17: 33,333 simulated time units per frame. -/
def defaultFrameInterval : Int := 33333

/-- `C`'s default, rule R18: a live point is removed at age 200,000. -/
def defaultDecayCeiling : Int := 200000

/-- `N` (MAX_POINTS), rule R19: how many records STAGED and LIVE may hold, each. OPEN in the spec (decision D6): a
positive integer or `unbounded`. `bounded 0` is no admitted value, and `step` refuses it by name. -/
inductive Capacity where
  | unbounded
  | bounded (n : Nat)
deriving DecidableEq, Repr

/-- `CLK_WIDTH`, rule R4: bits that are enough for CLK in a build while `F <= 2^32` (rule R85). The model's CLK is unbounded
(decision D4); that the width is enough is a statement. -/
def clkWidth : Nat := 33

/-- `AGE_WIDTH`, rule R4: bits in two's complement that are enough for an age at the default F and C (rule R120). The model's
ages are unbounded (decision D5). -/
def ageWidth : Nat := 19

/-- `BYTE_ORDER`, rules R4 and R42: how a byte-serial front end, if one is put before the block, makes one word of four
bytes. OPEN (decision D7) and read by no rule of the block: a free value, and no definition of the model calls it. -/
opaque assembleBytes : BitVec 8 → BitVec 8 → BitVec 8 → BitVec 8 → Word

end Sys2Proof.Config
end

