-- ==== Sys2Proof/Syntax.lean ====
section
/-! DEFINITION. The four commands of spec/opcode_table.json, one constructor a row (rules R64 and R69). -/

namespace Sys2Proof

/-- A command. Every bit of a command's word is in one of its operands, the ignored bits included, so that no bit of an
encoding is lost. -/
inductive Instr where
  /-- `RAW n` (rule R84): the whole word is the time amount `n`. -/
  | raw (n : Word)
  /-- `ESC fill` (rule R83): the escape marker. Bits 22:0 are `fill` and are ignored. -/
  | esc (fill : BitVec 23)
  /-- `BLANK dt, i` (rule R82): time advance without a point. Bits 22:20 are `i` and are ignored. -/
  | blank (dt : BitVec 9) (i : BitVec 3)
  /-- `PLOT dt, x, y, i` (rule R81): time advance and one new point. -/
  | plot (dt : BitVec 9) (x y : BitVec 10) (i : BitVec 3)
deriving DecidableEq, Repr

end Sys2Proof
end

