-- ==== Sys2Proof/WellFormed.lean ====
section
/-! DEFINITION. The conditions on operands of rule R69, and the escape state in which each command's word is read. -/

namespace Sys2Proof

/-- The operands an encoding admits (rule R69): `dt <= 510`, because 511 is the marker, and a PLOT is not at the origin,
because the origin selects BLANK. -/
def Instr.wellFormed : Instr → Bool
  | .raw _ => true
  | .esc _ => true
  | .blank dt _ => dt != Config.dtEsc
  | .plot dt x y _ => dt != Config.dtEsc && !(x == 0 && y == 0)

/-- The escape state in which a word is read as this command (rule R64, the table's column `mode`). -/
def Instr.mode : Instr → EscState
  | .raw _ => .escapePending
  | .esc _ => .normal
  | .blank _ _ => .normal
  | .plot _ _ _ _ => .normal

end Sys2Proof
end

