-- ==== Sys2Proof/Decode.lean ====
section
/-! DEFINITION. Field extraction (rule R63), classification (rule R64), the encoder (rule R68) and the listing's
pseudo-commands (rule R70). Every word decodes in both escape states: there is no illegal word (rule R65). What `decodeBits`
refuses by name is a transfer that is not one word wide, narrower or wider (93_implementation_defined.md U4, log entry 19). -/

namespace Sys2Proof

/-- `dt <- w[31:23]` (rule R63). -/
def dtField (w : Word) : BitVec 9 := w.extractLsb' 23 9

/-- `i <- w[22:20]` (rule R63). -/
def iField (w : Word) : BitVec 3 := w.extractLsb' 20 3

/-- `y <- w[19:10]` (rule R63). -/
def yField (w : Word) : BitVec 10 := w.extractLsb' 10 10

/-- `x <- w[9:0]` (rule R63). -/
def xField (w : Word) : BitVec 10 := w.extractLsb' 0 10

/-- Bits 22:0 of an escape marker, which carry nothing (rule R65). -/
def fillField (w : Word) : BitVec 23 := w.extractLsb' 0 23

/-- Which command a word is: the tests of rule R64 in the rule's order. A pending escape outranks the marker test, and the
marker test outranks the blank test. -/
def decode (m : EscState) (w : Word) : Instr :=
  match m with
  | .escapePending => .raw w
  | .normal =>
    if dtField w = Config.dtEsc then .esc (fillField w)
    else if xField w = 0 ∧ yField w = 0 then .blank (dtField w) (iField w)
    else .plot (dtField w) (xField w) (yField w) (iField w)

/-- Why a transfer is not read as a command word. -/
inductive DecodeReject where
  /-- The transfer is not one 32-bit word (U4: "malformed input (wrong word width)"). -/
  | wrongWordWidth (nbits : Nat)
deriving DecidableEq, Repr

/-- The command that a transfer of `nbits` bits with the value `w` gives in the escape state `m`. The spec leaves a transfer of
another width than one word to a front end outside the block and says that a model refuses it (rule R43, U4). DESIGN CHOICE
(log entry 19): it is rejected by name, shorter or longer, and so is a value that does not fit one word. -/
def decodeBits (m : EscState) (nbits w : Nat) : Except DecodeReject Instr :=
  if nbits ≠ Config.wordWidth ∨ 2 ^ Config.wordWidth ≤ w then .error (.wrongWordWidth nbits)
  else .ok (decode m (BitVec.ofNat 32 w))

/-- Do `nbits` bits of a table row with the value `w` stand for one whole word, the word's bits above `nbits` being 0? DESIGN
CHOICE (log entry 19): this is how the host writes a whole 32-bit word down, and no transfer of `nbits` bits to the block. -/
def isTableWord (nbits w : Nat) : Bool := nbits ≤ Config.wordWidth && w < 2 ^ nbits

/-- The opcode table's reading of a word as the first of a stream, with ESC NORMAL, as the block reads it after reset (rule
R26). The table's RAW row has the condition ESC == ESCAPE_PENDING, so no word gives a RAW here: see log entry 8. What is no table word of this
block (more than 32 bits, or a value that does not fit) is refused: log entry 19. -/
def decodeTableWord (nbits w : Nat) : Option Instr :=
  if isTableWord nbits w then (decodeBits .normal Config.wordWidth w).toOption else none

/-- `enc(dt, x, y, i)` of rule R68. -/
def enc (dt : BitVec 9) (x y : BitVec 10) (i : BitVec 3) : Word :=
  BitVec.ofNat 32 (dt.toNat * 2 ^ 23 + i.toNat * 2 ^ 20 + y.toNat * 2 ^ 10 + x.toNat)

/-- The word of each command: rule R69's column `word`. -/
def encode : Instr → Word
  | .raw n => n
  | .esc fill => BitVec.ofNat 32 (511 * 2 ^ 23 + fill.toNat)
  | .blank dt i => enc dt 0 0 i
  | .plot dt x y i => enc dt x y i

/-- `WAIT n` (rule R70): an escape marker and its payload. -/
def waitCommands (n : Word) : List Instr := [.esc 0, .raw n]

/-- `IDLE dt` (rule R70), for `dt <= 510`. -/
def idleCommands (dt : BitVec 9) : List Instr := [.blank dt 0]

/-- `NOP` (rule R70): the word 0 read with ESC NORMAL. -/
def nopCommands : List Instr := [.blank 0 0]

end Sys2Proof
end

