-- ==== Sys2Proof/Machine/State.lean ====
section
/-! DEFINITION. The state tuple of rule R10, the configuration beside it, the frame trace of rule R8, the ports of decision
D2, and what the environment will do next (rule R163), all plain data. -/

namespace Sys2Proof.Machine

/-- The point record of rule R13. `age` is signed (decision D5). -/
structure Point where
  x : BitVec 10
  y : BitVec 10
  i : BitVec 3
  age : Int
deriving DecidableEq, Repr

/-- What one frame event carries: a copy of LIVE (rule R102). -/
abbrev Frame := List Point

/-- The phase PH of rule R20. -/
inductive Phase where
  /-- No word in progress: the block can take one. -/
  | idle
  /-- A word's effect has been applied and the drain test is being made. -/
  | drain
  /-- A frame event has been emitted and the compositor is reading LIVE. -/
  | draw
deriving DecidableEq, Repr

/-- One thing the environment may do before the block's next action: rule R163's table. Two chunks at once cannot be written
down (rule R152: no move). -/
inductive Move where
  /-- The environment changes nothing. Reading OVF, busy or the shown frame is this move: it has no effect on the block. -/
  | quiet
  /-- The host offers a chunk of words, of any size, behind the ones still waiting (rules R41 and R50). -/
  | deliver (ws : List Word)
  /-- The compositor drives `frame_ready`. -/
  | driveFrameReady (level : Bool)
  /-- The host asserts reset with these values on the two configuration inputs (rule R150). -/
  | assertReset (f c : Int)
  /-- The host releases reset (rule R151). -/
  | releaseReset
  /-- The host puts values on the two configuration inputs. In flight a change is a breach (rule R157). -/
  | presentConfig (f c : Int)
  /-- The host takes back its first `n` waiting words. It may do so in reset only (rules R150 and R153). -/
  | withdraw (n : Nat)
deriving DecidableEq, Repr

/-- The machine. The first six fields are the state tuple of rule R10, the next three the configuration `(F, C, N)`. -/
structure State where
  /-- CLK, the residual simulated time (rule R11). Unbounded (decision D4). -/
  clk : Nat
  /-- ESC, the escape state (rule R12). -/
  esc : EscState
  /-- STAGED, the points created since the last step, earliest first (rule R14). -/
  staged : List Point
  /-- LIVE, the points the compositor draws, earliest inserted first (rule R15). -/
  live : List Point
  /-- OVF, the sticky overflow flag (rule R16). -/
  ovf : Bool
  /-- PH, the phase (rule R20). -/
  ph : Phase
  /-- F, the frame interval sampled at reset (rule R17). 0 stands for a sampled value below 1, which is refused (R154). -/
  frameInterval : Nat
  /-- C, the decay ceiling sampled at reset (rule R18). -/
  decayCeiling : Int
  /-- N, the capacity fixed by the build (rule R19). -/
  capacity : Config.Capacity
  /-- The frame events emitted since reset, NEWEST FIRST: the frame trace of rule R8, read backwards. -/
  frames : List Frame
  /-- `rst`, the reset input (decision D2). -/
  rst : Bool
  /-- `cfg_frame_interval`, the input F is sampled from (decision D2). -/
  cfgFrameInterval : Int
  /-- `cfg_decay_ceiling`, the input C is sampled from (decision D2). -/
  cfgDecayCeiling : Int
  /-- `frame_ready`, the compositor's "draw done" (decision D2). -/
  frameReady : Bool
  /-- The command stream: the words offered and not yet taken, the next one first. `cmd_valid` is "not empty" and `cmd_data`
  its head (rule R41). -/
  stream : List Word
  /-- What the environment does before each of the next steps, one move a step. After the last one, nothing. -/
  moves : List Move
deriving DecidableEq, Repr

/-- There is no fault: the block raises no exception (rules R130 and R135), so this type has no constructor. -/
inductive Fault where
deriving DecidableEq, Repr

/-- Reasons for no step. No command has one: each below is a configuration or a host breach the spec says to refuse. -/
inductive Refusal where
  /-- Raised by `exec`'s arm of an instruction without a meaning. There is none, so nobody raises it. Safe. -/
  | notModelled (mnemonic : String)
  /-- Raised by `step` out of reset when F is below 1 (rule R154, "`F = 0` is refused"; a negative F likewise). Safe. -/
  | frameIntervalBelowOne
  /-- Raised by `step` out of reset when N is `bounded 0` (rule R4: "`N >= 1` or `unbounded`"). Safe. -/
  | capacityBelowOne
  /-- Raised by `applyMove` when the host changes F or C in flight (rule R157, "A model should refuse it"). Safe. -/
  | configChangedInFlight
  /-- Raised by `applyMove` when the host takes back an offered word outside reset (rule R153, a host duty). Safe. -/
  | offeredWordWithdrawn
deriving DecidableEq, Repr

/-- The state right after reset with the default configuration (rule R26, decision D9). N is open in the spec, and
`unbounded` here is a DESIGN CHOICE (log entry 2). The levels of the ports are the environment's (log entry 3). -/
def State.reset : State where
  clk := 0
  esc := .normal
  staged := []
  live := []
  ovf := false
  ph := .idle
  frameInterval := Config.defaultFrameInterval.toNat
  decayCeiling := Config.defaultDecayCeiling
  capacity := .unbounded
  frames := []
  rst := false
  cfgFrameInterval := Config.defaultFrameInterval
  cfgDecayCeiling := Config.defaultDecayCeiling
  frameReady := true
  stream := []
  moves := []

end Sys2Proof.Machine
end

