-- ==== Sys2Proof/Machine/Flags.lean ====
section
/-! DEFINITION. The two flags: ESC (rule R12) and OVF (rule R16), with the capacity test that sets OVF and the trim that goes
with it (rule R115). -/

namespace Sys2Proof.Machine

/-- Does a sequence of this length not fit? `N != unbounded and len > N` (rule R115). -/
def overCapacity (n : Config.Capacity) (len : Nat) : Bool :=
  match n with
  | .unbounded => false
  | .bounded k => k < len

/-- `takeLast(N, s)` of rule R6: the last N elements in order, or all of them when they fit. -/
def takeLast {α : Type} (n : Config.Capacity) (l : List α) : List α :=
  match n with
  | .unbounded => l
  | .bounded k => l.drop (l.length - k)

/-- OVF after an append that left `len` records: sticky, set by a trim, never cleared here (rule R16). -/
def ovfAfter (n : Config.Capacity) (len : Nat) (ovf : Bool) : Bool := ovf || overCapacity n len

/-- `ESC <- ESCAPE_PENDING` (rule R83). -/
def setEscPending (s : State) : State := { s with esc := .escapePending }

/-- `ESC <- NORMAL` (rule R84). -/
def clearEsc (s : State) : State := { s with esc := .normal }

/-- The numeric code of ESC (decision D2): NORMAL is 0, ESCAPE_PENDING is 1. -/
def escCode : EscState → BitVec 1
  | .normal => 0
  | .escapePending => 1

end Sys2Proof.Machine
end

