-- ==== Sys2Proof/Machine/Operands.lean ====
section
/-! DEFINITION. What a command's operands stand for: time amounts, and the record a PLOT makes (rules R63, R81, R84). -/

namespace Sys2Proof.Machine

/-- `dt` as a time amount: unsigned, zero-extended, unscaled (rule R63). -/
def dtAmount (dt : BitVec 9) : Nat := dt.toNat

/-- A RAW payload as a time amount: all 32 bits, unsigned (rule R63). -/
def rawAmount (n : Word) : Nat := n.toNat

/-- The simulated time a command adds to CLK (rule R88, column CLK). -/
def timeAmount : Instr → Nat
  | .raw n => rawAmount n
  | .esc _ => 0
  | .blank dt _ => dtAmount dt
  | .plot dt _ _ _ => dtAmount dt

/-- The initial age `F - CLK` of rules R81 and R110, an integer that can be negative and is not clamped (decision D5). -/
def initialAge (f clk : Nat) : Int := (f : Int) - (clk : Int)

/-- The record PLOT hands to Stage (rule R81), with CLK as it stands after `dt` was added. -/
def newPoint (x y : BitVec 10) (i : BitVec 3) (f clk : Nat) : Point :=
  { x := x, y := y, i := i, age := initialAge f clk }

end Sys2Proof.Machine
end

