-- ==== Sys2Proof/Machine/Ops.lean ====
section
/-! DEFINITION. The named operations on the clock, the stream and the ports; reset, the block's only return to a known state
(rule R150); and the environment's moves (rule R163). There is no exception to take and none to return from (rules R130, R135),
and no memory (rule R40). -/

namespace Sys2Proof.Machine

/-- Go on with the next state, or stop as the first part stopped. -/
def andThen (o : Host.Outcome State Fault Refusal) (f : State → Host.Outcome State Fault Refusal) :
    Host.Outcome State Fault Refusal :=
  match o with
  | .next s => f s
  | .fault r => .fault r
  | .refused r => .refused r

/-- `CLK <- CLK + t`: exact, without wrap (rule R85). -/
def addTime (t : Nat) (s : State) : State := { s with clk := s.clk + t }

/-- `CLK <- CLK - F` (rule R100), made only when `CLK >= F`. -/
def subtractFrame (s : State) : State := { s with clk := s.clk - s.frameInterval }

/-- `emit FRAME(LIVE)` (rule R102). -/
def emitFrame (s : State) : State := { s with frames := s.live :: s.frames }

/-- What reset does to the block (rules R26 and R150): the state tuple and the trace take their reset values, and F and C
are sampled. N is the build's. The waiting words are the host's to keep, and the other ports are the environment's. -/
def resetBlock (s : State) : State :=
  { s with
    clk := 0
    esc := .normal
    staged := []
    live := []
    ovf := false
    ph := .idle
    frames := []
    frameInterval := s.cfgFrameInterval.toNat
    decayCeiling := s.cfgDecayCeiling }

/-- One move of the environment (rule R163). A liberty or a kept duty changes ports only, and a breach the spec says to refuse
is refused by name. -/
def applyMove (m : Move) (s : State) : Host.Outcome State Fault Refusal :=
  match m with
  | .quiet => .next s
  | .deliver ws => .next { s with stream := s.stream ++ ws }
  | .driveFrameReady level => .next { s with frameReady := level }
  | .assertReset f c => .next { s with rst := true, cfgFrameInterval := f, cfgDecayCeiling := c }
  | .releaseReset => .next { s with rst := false }
  | .presentConfig f c =>
    if s.rst = true ∨ (f = s.cfgFrameInterval ∧ c = s.cfgDecayCeiling) then
      .next { s with cfgFrameInterval := f, cfgDecayCeiling := c }
    else .refused .configChangedInFlight
  | .withdraw n =>
    if s.rst = true ∨ s.stream.take n = [] then .next { s with stream := s.stream.drop n }
    else .refused .offeredWordWithdrawn

/-- The environment makes its next scheduled move, if there is one. -/
def environment (s : State) : Host.Outcome State Fault Refusal :=
  match s.moves with
  | [] => .next s
  | m :: ms => applyMove m { s with moves := ms }

/-- `cmd_ready` (rule R105): the block offers to take a word exactly in IDLE. -/
def cmdReady (s : State) : Bool := s.ph == .idle

/-- `cmd_valid` (decision D2): a word is offered. -/
def cmdValid (s : State) : Bool := !s.stream.isEmpty

/-- `frame_valid` (rule R105): a frame is shown exactly in DRAW. -/
def frameValid (s : State) : Bool := s.ph == .draw

/-- `busy` (rule R105). -/
def busy (s : State) : Bool := s.ph != .idle

/-- The compositor's read of `pt_count` (decision D2), while a frame is shown (rule R27): `none` is "not readable". -/
def readCount (s : State) : Option Nat := if frameValid s then some s.live.length else none

/-- The compositor's read of `LIVE[k]` (decision D2), while a frame is shown (rule R27), for `k < pt_count`. -/
def readPoint (s : State) (k : Nat) : Option Point := if frameValid s then s.live[k]? else none

/-- The frame trace of rule R8: the frame events since reset, the first one first. -/
def trace (s : State) : List Frame := s.frames.reverse

/-- The observation of rule R8: the frame trace, OVF and busy. -/
def observe (s : State) : List Frame × Bool × Bool := (trace s, s.ovf, busy s)

/-- The ghost quantity FCNT of rule R25: frame events since reset. -/
def frameCount (s : State) : Nat := s.frames.length

/-- The ghost quantity T of rule R25, the absolute simulated time. -/
def absoluteTime (s : State) : Nat := frameCount s * s.frameInterval + s.clk

end Sys2Proof.Machine
end

