-- ==== Sys2Proof/Machine/EscapeCommands.lean ====
section
/-! DEFINITION. The bodies of the two halves of the escape sequence (rule R66): ESC and RAW. -/

namespace Sys2Proof.Machine

/-- ESC (rule R83): arm the escape and nothing else; the fill bits are ignored. -/
def execEsc (_fill : BitVec 23) (s : State) : Host.Outcome State Fault Refusal := .next (setEscPending s)

/-- RAW (rule R84): clear the escape and add the whole word to the clock. -/
def execRaw (n : Word) (s : State) : Host.Outcome State Fault Refusal := .next (addTime (rawAmount n) (clearEsc s))

end Sys2Proof.Machine
end

