-- ==== Sys2Proof/Machine/PointEngine.lean ====
section
/-! DEFINITION. The point engine: STAGE, and STEP = AGE, CULL, ADMIT with the capacity trim (rules R110 to R115). -/

namespace Sys2Proof.Machine

/-- `Stage(p)` (rule R110): append, and trim from the front at capacity (rule R115). -/
def stage (p : Point) (s : State) : State :=
  { s with
    staged := takeLast s.capacity (s.staged ++ [p])
    ovf := ovfAfter s.capacity (s.staged ++ [p]).length s.ovf }

/-- One record a frame interval older, with everything else of it as before (rule R112). -/
def olderBy (f : Nat) (p : Point) : Point := { p with age := p.age + f }

/-- `Age()` (rule R112). -/
def ageLive (s : State) : State := { s with live := s.live.map (olderBy s.frameInterval) }

/-- Does a record outlast CULL: `p.age < C` (rule R113, conflict C3). -/
def survives (c : Int) (p : Point) : Bool := p.age < c

/-- `Cull()` (rule R113). -/
def cullLive (s : State) : State := { s with live := s.live.filter (survives s.decayCeiling) }

/-- `Admit()` (rule R114), which ends with the trim of rule R115. -/
def admitStaged (s : State) : State :=
  { s with
    live := takeLast s.capacity (s.live ++ s.staged)
    staged := []
    ovf := ovfAfter s.capacity (s.live ++ s.staged).length s.ovf }

/-- `Step()` (rule R111): AGE, then CULL, then ADMIT. -/
def pointStep (s : State) : State := admitStaged (cullLive (ageLive s))

/-- How many frame events show a point that is admitted with age `a` (rule R116): `max(1, ceil((C - a) / F))`. -/
def lifetime (f : Nat) (c a : Int) : Nat := (max 1 ((c - a + f - 1) / f)).toNat

end Sys2Proof.Machine
end

