-- ==== Sys2Proof/Machine/FieldCommands.lean ====
section
/-! DEFINITION. The bodies of the field-format commands that carry a time delta: PLOT and BLANK. -/

namespace Sys2Proof.Machine

/-- PLOT (rule R81): the clock first, then the point with the age taken from the clock just written. -/
def execPlot (dt : BitVec 9) (x y : BitVec 10) (i : BitVec 3) (s : State) : Host.Outcome State Fault Refusal :=
  let t := addTime (dtAmount dt) s
  .next (stage (newPoint x y i t.frameInterval t.clk) t)

/-- BLANK (rule R82): the clock only; the intensity `i` takes no part. -/
def execBlank (dt : BitVec 9) (_i : BitVec 3) (s : State) : Host.Outcome State Fault Refusal :=
  .next (addTime (dtAmount dt) s)

end Sys2Proof.Machine
end

