-- ==== Sys2Proof/Machine/Dispatch.lean ====
section
/-! DEFINITION. The command body of each command (rule R80's four-way choice, once the word is decoded). -/

namespace Sys2Proof.Machine

def exec (i : Instr) (s : State) : Host.Outcome State Fault Refusal :=
  match i with
  | .raw n => Sys2Proof.Machine.execRaw n s
  | .esc fill => Sys2Proof.Machine.execEsc fill s
  | .blank dt intensity => Sys2Proof.Machine.execBlank dt intensity s
  | .plot dt x y intensity => Sys2Proof.Machine.execPlot dt x y intensity s

end Sys2Proof.Machine
end

