-- ==== Sys2Proof/Machine/Drain.lean ====
section
/-! DEFINITION. The frame drain (rule R100). -/

namespace Sys2Proof.Machine

/-- One pass of the drain loop: subtract, step, draw, in this order (rule R100). -/
def framePass (s : State) : State := emitFrame (pointStep (subtractFrame s))

/-- The drain test `CLK >= F`. -/
def frameDue (s : State) : Bool := s.frameInterval ≤ s.clk

/-- At most `fuel` passes of the loop of rule R100. -/
def drainLoop : Nat → State → State
  | 0, s => s
  | fuel + 1, s => if frameDue s then drainLoop fuel (framePass s) else s

/-- `Drain()` (rule R100). With `F >= 1` every pass lowers CLK, so CLK passes are always enough (rule R101). -/
def drain (s : State) : State := drainLoop s.clk s

end Sys2Proof.Machine
end

