-- ==== Sys2Proof/Machine/Phases.lean ====
section
/-! DEFINITION. The small-step machine on PH (rule R105), with reset above it (rules R134 and R150). -/

namespace Sys2Proof.Machine

/-- IDLE (rule R105): take the offered word, run its command body and go to DRAIN; without a word, no change (R41, R87). -/
def idlePhase (s : State) : Host.Outcome State Fault Refusal :=
  match s.stream with
  | [] => .next s
  | w :: ws => andThen (exec (decode s.esc w) { s with stream := ws }) (fun t => .next { t with ph := .drain })

/-- DRAIN (rule R105): one frame and on to DRAW when one is due, else back to IDLE. -/
def drainPhase (s : State) : State :=
  if frameDue s then { framePass s with ph := .draw } else { s with ph := .idle }

/-- DRAW (rule R105): wait for the compositor, LIVE held stable. -/
def drawPhase (s : State) : State := if s.frameReady then { s with ph := .drain } else s

/-- Is N an admitted value: `N >= 1` or `unbounded` (rule R4)? -/
def capacityAdmitted (n : Config.Capacity) : Bool :=
  match n with
  | .unbounded => true
  | .bounded k => 1 ≤ k

/-- The block's action under the present ports: reset outranks everything (rule R134), an unadmitted configuration is refused
(rules R4 and R154), and otherwise the phase acts. -/
def blockAction (s : State) : Host.Outcome State Fault Refusal :=
  if s.rst then .next (resetBlock s)
  else if s.frameInterval < 1 then .refused .frameIntervalBelowOne
  else if !capacityAdmitted s.capacity then .refused .capacityBelowOne
  else
    match s.ph with
    | .idle => idlePhase s
    | .drain => .next (drainPhase s)
    | .draw => .next (drawPhase s)

end Sys2Proof.Machine
end

