-- ==== Sys2Proof/Machine/Step.lean ====
section
/-! DEFINITION. One step: the environment's next move, then the block's action (rule R105). -/

namespace Sys2Proof.Machine

/-- One step of the machine. -/
def step (s : State) : Host.Outcome State Fault Refusal := andThen (environment s) blockAction

/-- The state with the word `w` as the next one the host offers, and the block free to take it in the very next step: IDLE,
not in reset, no other move of the environment first. ESC, which decides how the word is read, stays (log entry 8). DESIGN
CHOICE (log entry 19): `w` is a whole word whose bits above `nbits` are 0; where it is no table word of this block, no word can be
offered and the state is as it was. -/
def State.withFetchWord (s : State) (nbits w : Nat) : State :=
  if isTableWord nbits w then
    { s with
      stream := BitVec.ofNat 32 w :: s.stream
      ph := .idle
      rst := false
      moves := [] }
  else s

end Sys2Proof.Machine
end

