-- ==== Sys2Proof/Machine/Feed.lean ====
section
/-! DEFINITION. The atomic semantics of rules R80 and R86: one whole word, and a sequence of words. The small-step machine of
rule R105 is in Phases.lean; that the two agree is a statement, not a definition. -/

namespace Sys2Proof.Machine

/-- `Word(w)` (rule R80): one command body, then the drain, always. Refuses F below 1, which is a premise of every rule
(rule R154) and without which the drain would not end. -/
def runWord (w : Word) (s : State) : Host.Outcome State Fault Refusal :=
  if s.frameInterval < 1 then .refused .frameIntervalBelowOne
  else andThen (exec (decode s.esc w) s) (fun t => .next (drain t))

/-- `feed(ws)` (rule R86): each word to completion before the next begins. -/
def feed : List Word → State → Host.Outcome State Fault Refusal
  | [], s => .next s
  | w :: ws, s => andThen (runWord w s) (feed ws)

/-- ESC after a word that is read in the escape state `m` (rule R88, column "ESC after"). -/
def escAfter (m : EscState) (w : Word) : EscState :=
  match decode m w with
  | .raw _ => .normal
  | .esc _ => .escapePending
  | .blank _ _ => .normal
  | .plot _ _ _ _ => .normal

/-- The total time amount of a word sequence that starts in the escape state `m`: every `dt` of its PLOT and BLANK words and
every RAW payload (rules R25 and R101). -/
def totalTime : EscState → List Word → Nat
  | _, [] => 0
  | m, w :: ws => timeAmount (decode m w) + totalTime (escAfter m w) ws

end Sys2Proof.Machine
end

