-- ==== Sys2Proof/Machine/Run.lean ====
section
/-! DEFINITION. Several steps. -/

namespace Sys2Proof.Machine

/-- `k` steps, stopping where a step stops. -/
def runSteps : Nat → State → Host.Outcome State Fault Refusal
  | 0, s => .next s
  | k + 1, s => andThen (step s) (runSteps k)

end Sys2Proof.Machine
end

