-- ==== Sys2Proof/Safety.lean ====
section
/-! DEFINITION. What counts as a safe state and a safe run: the invariant of the reachable states (rules R22, R23, R115, R118,
R120, R159), the start premises of rule R163, and the environments that keep their duties. -/

namespace Sys2Proof.Machine

/-- `CONFIG_OK` of rule R163: `F >= 1` and an admitted capacity. -/
def ConfigOk (s : State) : Prop := 1 ≤ s.frameInterval ∧ capacityAdmitted s.capacity = true

/-- `NO_OVERFLOW` of rule R163. -/
def NoOverflow (s : State) : Prop := s.ovf = false ∨ s.capacity = .unbounded

/-- The reset state with a chosen configuration: `F` and `C` as presented at reset, `N` as built (rule R26). -/
def bootState (f : Nat) (c : Int) (n : Config.Capacity) : State :=
  { State.reset with
    frameInterval := f
    decayCeiling := c
    capacity := n
    cfgFrameInterval := f
    cfgDecayCeiling := c }

/-- `START_REACHABLE` of rule R163: reached from a reset state by some word sequence. -/
def StartReachable (s : State) : Prop :=
  ∃ f c n ws, ConfigOk (bootState f c n) ∧ feed ws (bootState f c n) = .next s

/-- A record is not at the origin (rules R13 and R159). -/
def offOrigin (p : Point) : Prop := ¬(p.x = 0 ∧ p.y = 0)

/-- The range of an initial age (rule R120). -/
def freshAge (s : State) (p : Point) : Prop := -509 ≤ p.age ∧ p.age ≤ s.frameInterval

/-- The range of an age in LIVE between steps (rule R120). -/
def liveAge (s : State) (p : Point) : Prop := -509 ≤ p.age ∧ p.age ≤ max (s.decayCeiling - 1) s.frameInterval

/-- Ages along a sequence do not increase from index 0 upwards (rule R118). -/
def agesFall (l : List Int) : Prop := l.Pairwise (fun a b => b ≤ a)

/-- The ages the points will have when the next step has aged LIVE and admitted STAGED, and behind them the initial age a
point staged now would get. That this list does not increase is rule R118 with what it needs to be kept. -/
def upcomingAges (s : State) : List Int :=
  s.live.map (fun p => p.age + (s.frameInterval : Int)) ++ s.staged.map (fun p => p.age)
    ++ [initialAge s.frameInterval s.clk]

/-- What rules R102 and R118 say of every frame event's records. -/
structure FrameOk (s : State) (f : Frame) : Prop where
  fits : overCapacity s.capacity f.length = false
  off_origin : ∀ p ∈ f, offOrigin p
  age_range : ∀ p ∈ f, liveAge s p
  ordered : agesFall (f.map (fun p => p.age))

/-- The invariant of the machine. It holds at reset, and every step keeps it. -/
structure Inv (s : State) : Prop where
  /-- Rule R4: outside reset the configuration is admitted. -/
  config : s.rst = false → ConfigOk s
  /-- Rule R150: while reset is asserted the block is in the reset state. -/
  in_reset : s.rst = true → s.clk = 0 ∧ s.esc = .normal ∧ s.staged = [] ∧ s.live = [] ∧ s.ovf = false ∧ s.ph = .idle
    ∧ s.frames = []
  /-- Rule R22, the clock invariant. -/
  clock_idle : s.rst = false → s.ph = .idle → s.clk < s.frameInterval
  /-- Rule R85: the largest value CLK ever has. -/
  clock_bound : s.clk ≤ s.frameInterval + 4294967294
  /-- Rules R14 and R115. -/
  staged_fits : overCapacity s.capacity s.staged.length = false
  /-- Rule R16: without a capacity OVF is never set. -/
  ovf_needs_capacity : s.capacity = .unbounded → s.ovf = false
  /-- Rule R159. -/
  staged_off_origin : ∀ p ∈ s.staged, offOrigin p
  /-- Rule R120. -/
  staged_age : ∀ p ∈ s.staged, freshAge s p
  /-- Rule R118. -/
  ordered : agesFall (upcomingAges s)
  /-- Rules R23 and R105: while a frame is shown nothing is staged, and a frame event has been emitted. -/
  draw_shows : s.ph = .draw → s.staged = [] ∧ s.frames ≠ []
  /-- Rule R15: LIVE does not change between two frame events, so it is the last frame, or empty before the first. -/
  live_is_last_frame : s.live = s.frames.headD []
  /-- Rules R102, R115, R118, R120, R159, for every frame event, and so for LIVE. -/
  frames_ok : ∀ f ∈ s.frames, FrameOk s f

/-- Is this move a breach that the spec says to refuse (rules R153 and R157)? -/
def breach (m : Move) (s : State) : Bool :=
  match m with
  | .quiet => false
  | .deliver _ => false
  | .driveFrameReady _ => false
  | .assertReset _ _ => false
  | .releaseReset => false
  | .presentConfig f c => !s.rst && !(f == s.cfgFrameInterval && c == s.cfgDecayCeiling)
  | .withdraw n => !s.rst && !(s.stream.take n).isEmpty

/-- The moves of an environment that only delivers words, in chunks and with delays of its own, and drives `frame_ready`. -/
def feedingMove : Move → Bool
  | .quiet => true
  | .deliver _ => true
  | .driveFrameReady _ => true
  | .assertReset _ _ => false
  | .releaseReset => false
  | .presentConfig _ _ => false
  | .withdraw _ => false

/-- All words that a list of moves delivers, in order. -/
def deliveredWords : List Move → List Word
  | [] => []
  | .deliver ws :: ms => ws ++ deliveredWords ms
  | .quiet :: ms => deliveredWords ms
  | .driveFrameReady _ :: ms => deliveredWords ms
  | .assertReset _ _ :: ms => deliveredWords ms
  | .releaseReset :: ms => deliveredWords ms
  | .presentConfig _ _ :: ms => deliveredWords ms
  | .withdraw _ :: ms => deliveredWords ms

/-- The level of `frame_ready` after a list of moves: the compositor "eventually signals done" when it is high. -/
def levelAfter : Bool → List Move → Bool
  | b, [] => b
  | _, .driveFrameReady level :: ms => levelAfter level ms
  | b, .quiet :: ms => levelAfter b ms
  | b, .deliver _ :: ms => levelAfter b ms
  | b, .assertReset _ _ :: ms => levelAfter b ms
  | b, .releaseReset :: ms => levelAfter b ms
  | b, .presentConfig _ _ :: ms => levelAfter b ms
  | b, .withdraw _ :: ms => levelAfter b ms

/-- The arrival times of the points in LIVE, by the closed form of rule R117: `t = m * F - age`, with `m` = FCNT. -/
def liveArrivals (s : State) : List Int := s.live.map (fun p => (frameCount s : Int) * s.frameInterval - p.age)

/-- The arrival times of the points in STAGED, which the next step admits: `t = (FCNT + 1) * F - age` (rule R117). -/
def stagedArrivals (s : State) : List Int :=
  s.staged.map (fun p => ((frameCount s : Int) + 1) * s.frameInterval - p.age)

/-- `kept` is what a sequence `full` leaves under the capacity `n`, and `dropped` is what went from its front (rule R115). -/
structure Trimmed (n : Config.Capacity) (full dropped kept : List Point) : Prop where
  split : dropped ++ kept = full
  unbounded : n = .unbounded → dropped = []
  bounded : ∀ k, n = .bounded k → kept.length ≤ k ∧ (dropped = [] ∨ kept.length = k)

/-- `n` steps of the point engine with nothing staged in between (rule R116). -/
def pointSteps : Nat → State → State
  | 0, s => s
  | n + 1, s => pointSteps n (pointStep s)

end Sys2Proof.Machine
end

