-- ==== Sys2Proof/Certificates/Slice0/Obligations.lean ====
section
/-! DEFINITION. The statements for the provers, from the numbered rules of spec/. The block has no memory (rule R40), so no
frame below speaks of a byte of memory; the command stream and the point store take its place. -/

open Sys2Proof Sys2Proof.Machine

/-! ## Encoding -/

/-- Words written out in 95_test_vectors.md sections 2.1 and 2.2, one or more of each class, decode to their commands. -/
def Obligations.WrittenOutWordsDecode : Prop :=
  decode .normal 0x02B32064 = .plot 5 100 200 3 ∧
  decode .normal 0xFF7FFFFF = .plot 510 1023 1023 7 ∧
  decode .normal 0x00000001 = .plot 0 1 0 0 ∧
  decode .normal 0x00000400 = .plot 0 0 1 0 ∧
  decode .normal 0x00700000 = .blank 0 7 ∧
  decode .normal 0xFF000000 = .blank 510 0 ∧
  decode .normal 0xFF800000 = .esc 0 ∧
  decode .normal 0xFFFFFFFF = .esc 0x7FFFFF ∧
  decode .escapePending 0x02B32064 = .raw 0x02B32064 ∧
  decode .escapePending 0xFF800000 = .raw 0xFF800000 ∧
  decode .escapePending 0x00000000 = .raw 0

/-- Decoding the word of a well-formed command, in the escape state that reads such words, gives the command back. -/
def Obligations.DecodeOfEncode : Prop :=
  ∀ i : Instr, i.wellFormed = true → decode i.mode (encode i) = i

/-- Every word, read in either escape state, is the word of the command it decodes to: no bit is dropped. The command is well
formed and is one that this escape state reads. -/
def Obligations.EncodeOfDecode : Prop :=
  ∀ (m : EscState) (w : Word), encode (decode m w) = w ∧ (decode m w).wellFormed = true ∧ (decode m w).mode = m

/-- Rule R63: the four fields by shift and modulus, their ranges, and a format R word taken whole. The amounts are natural
numbers: `dt` of a decoded PLOT or BLANK is at most 510. -/
def Obligations.FieldsMaskTheWord : Prop :=
  ∀ w : Word,
    (dtField w).toNat = w.toNat / 2 ^ 23 % 512 ∧ (iField w).toNat = w.toNat / 2 ^ 20 % 8 ∧
    (yField w).toNat = w.toNat / 2 ^ 10 % 1024 ∧ (xField w).toNat = w.toNat % 1024 ∧
    (xField w).toNat ≤ 1023 ∧ (yField w).toNat ≤ 1023 ∧ (iField w).toNat ≤ 7 ∧ (dtField w).toNat ≤ 511 ∧
    timeAmount (decode .normal w) = (if (dtField w).toNat = 511 then 0 else (dtField w).toNat) ∧
    timeAmount (decode .normal w) ≤ 510 ∧
    timeAmount (decode .escapePending w) = w.toNat ∧ timeAmount (decode .escapePending w) ≤ 4294967295

/-- The four classes by the tests on the whole word, bits 31:23 and bits 19:0, in the order of 30_encoding.md section 4. -/
def Obligations.ClassOfEveryWord : Prop :=
  ∀ w : Word,
    decode .escapePending w = .raw w ∧
    (w.toNat / 2 ^ 23 = 511 → ∃ fill, decode .normal w = .esc fill) ∧
    (w.toNat / 2 ^ 23 ≠ 511 → w.toNat % 2 ^ 20 = 0 → ∃ dt i, decode .normal w = .blank dt i) ∧
    (w.toNat / 2 ^ 23 ≠ 511 → w.toNat % 2 ^ 20 ≠ 0 → ∃ dt x y i, decode .normal w = .plot dt x y i)

/-! ## The four commands -/

/-- PLOT answers a next state in every state: the clock is advanced, the point is appended to STAGED with the age taken from
the clock just written, what does not fit goes from the front and sets OVF, and nothing else changes. The capacity and the
unclamped age are the spec's own decisions D6 and D5. -/
def Obligations.PlotAdvancesClockAndStages : Prop :=
  ∀ (dt : BitVec 9) (x y : BitVec 10) (i : BitVec 3) (s : State), ∃ (t : State) (dropped : List Point),
    exec (.plot dt x y i) s = .next t ∧
    t.clk = s.clk + dt.toNat ∧
    Trimmed s.capacity (s.staged ++ [⟨x, y, i, (s.frameInterval : Int) - (t.clk : Int)⟩]) dropped t.staged ∧
    (t.ovf = true ↔ s.ovf = true ∨ dropped ≠ []) ∧
    t = { s with clk := t.clk, staged := t.staged, ovf := t.ovf }

/-- Rule R82: BLANK adds `dt` to the clock and changes nothing else, whatever `i` is; and a word that is no marker and has
`x = y = 0` is one, with the drain behind it. (Whether the origin ought to be plottable is the source's open question, which the
spec leaves at the stated behaviour, decision D15.) -/
def Obligations.BlankAdvancesClockOnly : Prop :=
  (∀ (dt : BitVec 9) (i : BitVec 3) (s : State),
    exec (.blank dt i) s = .next { s with clk := s.clk + dt.toNat }) ∧
  (∀ (w : Word) (s : State), 1 ≤ s.frameInterval → s.esc = .normal →
    dtField w ≠ Config.dtEsc → xField w = 0 → yField w = 0 →
    runWord w s = .next (drain { s with clk := s.clk + (dtField w).toNat }))

/-- Rule R83: ESC sets ESCAPE_PENDING and changes nothing else, whatever its fill bits are; 511 is not added; and the whole
word does no more, because the drain behind it finds the clock below F. ESC is met in NORMAL only, so ESC is never set while
set; and with no further word it stays pending for any number of steps. -/
def Obligations.EscArmsTheEscapeOnly : Prop :=
  (∀ (fill : BitVec 23) (s : State), exec (.esc fill) s = .next { s with esc := .escapePending }) ∧
  (∀ (w : Word) (s : State), s.clk < s.frameInterval → s.esc = .normal → dtField w = Config.dtEsc →
    runWord w s = .next { s with esc := .escapePending }) ∧
  (∀ (m : EscState) (w : Word) (fill : BitVec 23), decode m w = .esc fill → m = .normal) ∧
  (∀ (k : Nat) (s : State), s.rst = false → ConfigOk s → s.ph = .idle → s.esc = .escapePending → s.stream = [] →
    s.moves = [] → runSteps k s = .next s)

/-- Rule R84: RAW clears ESC and adds the whole word to the clock and changes nothing else. The whole word drains
`(CLK + w) div F` frames and leaves `(CLK + w) mod F`, so that the absolute time T advances by exactly `w`; no point is made,
since the drain starts from the points that were there. -/
def Obligations.RawTakesTheWholeWord : Prop :=
  (∀ (n : Word) (s : State), exec (.raw n) s = .next { s with esc := .normal, clk := s.clk + n.toNat }) ∧
  (∀ (w : Word) (s : State), 1 ≤ s.frameInterval → s.esc = .escapePending → ∃ t : State,
    runWord w s = .next t ∧ t = drain { s with esc := .normal, clk := s.clk + w.toNat } ∧ t.esc = .normal ∧
    t.clk = (s.clk + w.toNat) % s.frameInterval ∧
    frameCount t = frameCount s + (s.clk + w.toNat) / s.frameInterval ∧
    absoluteTime t = absoluteTime s + w.toNat)

/-- The frame of the four command bodies (40_decoder_commands.md section 7): LIVE, PH, the configuration, the trace and every
port are unchanged by all of them; STAGED and OVF by all but PLOT; ESC by PLOT and BLANK; CLK by ESC. -/
def Obligations.CommandsLeaveTheRest : Prop :=
  ∀ (i : Instr) (s t : State), exec i s = .next t →
    t.live = s.live ∧ t.ph = s.ph ∧ t.frameInterval = s.frameInterval ∧ t.decayCeiling = s.decayCeiling ∧
    t.capacity = s.capacity ∧ t.frames = s.frames ∧ t.rst = s.rst ∧ t.cfgFrameInterval = s.cfgFrameInterval ∧
    t.cfgDecayCeiling = s.cfgDecayCeiling ∧ t.frameReady = s.frameReady ∧ t.stream = s.stream ∧ t.moves = s.moves ∧
    ((∀ dt x y b, i ≠ .plot dt x y b) → t.staged = s.staged ∧ t.ovf = s.ovf) ∧
    ((∃ dt x y b, i = .plot dt x y b) ∨ (∃ dt b, i = .blank dt b) → t.esc = s.esc) ∧
    ((∃ fill, i = .esc fill) → t.clk = s.clk)

/-- The escape sequence (30_encoding.md section 5): an escape marker and the word behind it add that word, whole, to the clock and make no point; ESC is NORMAL
again, also when the second word looks like a marker. -/
def Obligations.EscapePairAddsItsPayload : Prop :=
  ∀ (marker w : Word) (s : State), s.clk < s.frameInterval → s.esc = .normal → dtField marker = Config.dtEsc →
    feed [marker, w] s = .next (drain { s with clk := s.clk + w.toNat }) ∧
    (drain { s with clk := s.clk + w.toNat }).esc = .normal

/-- The pseudo-commands of 30_encoding.md section 7: `WAIT n` adds `n` and makes no point, `WAIT n` with `n <= 510` does what
`IDLE n` does, and NOP changes nothing. -/
def Obligations.PseudoCommandsDoWhatTheyStandFor : Prop :=
  ∀ (n : Word) (s : State), s.clk < s.frameInterval → s.esc = .normal →
    feed ((waitCommands n).map encode) s = .next (drain { s with clk := s.clk + n.toNat }) ∧
    (n.toNat ≤ 510 →
      feed ((waitCommands n).map encode) s = feed ((idleCommands (BitVec.ofNat 9 n.toNat)).map encode) s) ∧
    feed (nopCommands.map encode) s = .next s

/-! ## Words, feeding and the drain -/

/-- A step of an IDLE block that is offered the word `w` runs exactly the command `w` decodes to in the present escape state,
after the environment's move and with the word taken, and goes to DRAIN; and it always answers a next state. The phases are the
spec's own decision D11, and one move before each action is the model's form (log entries 4 and 5). -/
def Obligations.StepRunsTheDecodedCommand : Prop :=
  ∀ (s e : State) (w : Word) (ws : List Word),
    environment s = .next e → e.rst = false → ConfigOk e → e.ph = .idle → e.stream = w :: ws →
    step s = andThen (exec (decode e.esc w) { e with stream := ws }) (fun t => .next { t with ph := .drain }) ∧
    ∃ t, step s = .next t ∧ t.ph = .drain ∧ t.stream = ws

/-- Rule R100: the drain is the loop "while CLK >= F: subtract, step, draw". One pass lowers the clock by F, takes the point
step (which does not read the clock) and emits the LIVE that step left; the loop goes on from there; below F nothing happens;
at exactly F one frame is drained and 0 is left. Of the state only CLK, STAGED, LIVE, OVF and the trace can change. -/
def Obligations.DrainLoopsWhileAFrameIsDue : Prop :=
  ∀ s : State, 1 ≤ s.frameInterval →
    (s.frameInterval ≤ s.clk → drain s = drain (framePass s)) ∧
    (s.clk < s.frameInterval → drain s = s) ∧
    framePass s = { pointStep s with
      clk := s.clk - s.frameInterval
      frames := (pointStep s).live :: s.frames } ∧
    (s.clk = s.frameInterval → (drain s).clk = 0 ∧ frameCount (drain s) = frameCount s + 1) ∧
    drain s = { s with
      clk := (drain s).clk
      staged := (drain s).staged
      live := (drain s).live
      ovf := (drain s).ovf
      frames := (drain s).frames }

/-- The frame count law of 41_frame_drain.md section 1: `c div F` frames, CLK left at `c mod F`, and every point staged before
has left STAGED as soon as one frame was drained. -/
def Obligations.DrainCountsFrames : Prop :=
  ∀ s : State, 1 ≤ s.frameInterval →
    frameCount (drain s) = frameCount s + s.clk / s.frameInterval ∧
    (drain s).clk = s.clk % s.frameInterval ∧
    (s.frameInterval ≤ s.clk → (drain s).staged = [])

/-- The frame count law over a word sequence, from any start with `CLK < F`: the amounts are every `dt` of the PLOT and BLANK
words and every RAW payload. The sequence always runs to its end. -/
def Obligations.FeedCountsFrames : Prop :=
  ∀ (ws : List Word) (s : State), s.clk < s.frameInterval → ∃ t : State, feed ws s = .next t ∧
    frameCount t = frameCount s + (s.clk + totalTime s.esc ws) / s.frameInterval ∧
    t.clk = (s.clk + totalTime s.esc ws) % s.frameInterval ∧
    absoluteTime t = absoluteTime s + totalTime s.esc ws

/-- Rule R86: feeding is word by word, each to completion, so that a sequence split anywhere is fed in two parts. -/
def Obligations.FeedIsWordByWord : Prop :=
  (∀ (w : Word) (s : State), feed [w] s = runWord w s) ∧
  (∀ (a b : List Word) (s : State), feed (a ++ b) s = andThen (feed a s) (feed b))

/-- Rule R87: the empty sequence changes nothing and emits nothing; at the port the block sits in IDLE with no word offered,
and every step leaves the whole state as it is. -/
def Obligations.NoInputNoChange : Prop :=
  (∀ s : State, feed [] s = .next s) ∧
  (∀ (k : Nat) (s : State), s.rst = false → ConfigOk s → s.ph = .idle → s.stream = [] → s.moves = [] →
    runSteps k s = .next s)

/-- The small-step machine of 41_frame_drain.md section 2, the spec's own decision D11, runs one word exactly as the atomic
procedure does, with a compositor that is done at once: one step takes the word, two pass for each frame, one goes back to IDLE. -/
def Obligations.SmallStepsRunOneWord : Prop :=
  ∀ (s : State) (w : Word) (ws : List Word),
    s.rst = false → ConfigOk s → s.ph = .idle → s.moves = [] → s.frameReady = true → s.stream = w :: ws →
    ∃ t : State, runWord w { s with stream := ws } = .next t ∧
      runSteps (2 + 2 * ((s.clk + timeAmount (decode s.esc w)) / s.frameInterval)) s = .next t

/-- Chunk invariance and independence of all timing at the port (20_memory.md section 5, 41_frame_drain.md section 2): from an
IDLE block, an environment that delivers words in any chunks with any delays, and a compositor that takes any time but is done
in the end, give the state and the frame trace of feeding the whole sequence to the atomic procedure. -/
def Obligations.ChunksAndDelaysDoNotMatter : Prop :=
  ∀ s : State, s.rst = false → ConfigOk s → s.ph = .idle → (∀ m ∈ s.moves, feedingMove m = true) →
    levelAfter s.frameReady s.moves = true →
    ∃ (k : Nat) (u : State), feed (s.stream ++ deliveredWords s.moves) s = .next u ∧
      runSteps k s = .next { u with stream := [], moves := [], frameReady := true }

/-! ## The point engine -/

/-- Rule R112: AGE adds F to the age of every record of LIVE, by exact integer addition, keeps number, order, `x`, `y` and `i`,
and touches nothing else. -/
def Obligations.AgeAddsOneInterval : Prop :=
  ∀ s : State,
    (ageLive s).live.length = s.live.length ∧
    (∀ (k : Nat) (p : Point), s.live[k]? = some p →
      (ageLive s).live[k]? = some ⟨p.x, p.y, p.i, p.age + (s.frameInterval : Int)⟩) ∧
    ageLive s = { s with live := (ageLive s).live }

/-- Rule R113: CULL removes exactly the records of LIVE with `age >= C`, each occurrence of them, keeps every other occurrence
in order, and touches nothing else. It never sees STAGED, and in a step it comes after AGE and before ADMIT. -/
def Obligations.CullRemovesExactlyTheExpired : Prop :=
  ∀ s : State,
    (cullLive s).live.Sublist s.live ∧
    (∀ p : Point, (cullLive s).live.count p = if s.decayCeiling ≤ p.age then 0 else s.live.count p) ∧
    cullLive s = { s with live := (cullLive s).live } ∧
    (∀ st : List Point, (cullLive { s with staged := st }).live = (cullLive s).live) ∧
    pointStep s = admitStaged (cullLive (ageLive s))

/-- The step of 42_point_engine.md sections 2 and 3: a step ages what is in LIVE, removes what has then reached the ceiling, and puts all of STAGED, unaged and
untested, behind the survivors; then the capacity trim, which is the spec's own decision D6 (log entry 1). It reads neither CLK nor ESC. Only LIVE, STAGED and OVF
are written. -/
def Obligations.PointStepAgesCullsAdmits : Prop :=
  ∀ s : State, ∃ dropped : List Point,
    Trimmed s.capacity
      ((s.live.map (fun p => (⟨p.x, p.y, p.i, p.age + (s.frameInterval : Int)⟩ : Point))).filter
        (fun p => decide (p.age < s.decayCeiling)) ++ s.staged)
      dropped (pointStep s).live ∧
    (pointStep s).staged = [] ∧
    ((pointStep s).ovf = true ↔ s.ovf = true ∨ dropped ≠ []) ∧
    pointStep s = { s with live := (pointStep s).live, staged := [], ovf := (pointStep s).ovf } ∧
    ∀ (clk : Nat) (e : EscState),
      pointStep { s with clk := clk, esc := e } = { pointStep s with clk := clk, esc := e }

/-- A point that PLOT stages is in LIVE at the frame event of the drain pass made right after that PLOT, the last of LIVE, with its
initial age, even when that age is at or above the ceiling (20_memory.md section 5, 42_point_engine.md section 2). For words in
between see FirstFrameShowsEveryStagedPoint. -/
def Obligations.StagedPointIsInTheNextFrame : Prop :=
  ∀ (dt : BitVec 9) (x y : BitVec 10) (i : BitVec 3) (s : State), capacityAdmitted s.capacity = true →
    ∃ (t : State) (before : List Point), exec (.plot dt x y i) s = .next t ∧
      (framePass t).frames.head? =
        some (before ++ [⟨x, y, i, (s.frameInterval : Int) - ((s.clk + dt.toNat : Nat) : Int)⟩])

/-- A staged point is in LIVE at the first frame event that any later words cause, as it was staged, and until such an event it
stays in STAGED (20_memory.md section 5), while no point is lost to the capacity (decision D6): with OVF clear at the end, or no
capacity. Event number `frameCount s` of the trace, counted from 0, is the first one after `s`. -/
def Obligations.FirstFrameShowsEveryStagedPoint : Prop :=
  ∀ (ws : List Word) (s t : State) (p : Point), 1 ≤ s.frameInterval → p ∈ s.staged → feed ws s = .next t → NoOverflow t →
    (frameCount t = frameCount s → p ∈ t.staged) ∧
    (frameCount s < frameCount t → ∃ f, (trace t)[frameCount s]? = some f ∧ p ∈ f)

/-- The capacity rule for STAGE (42_point_engine.md section 3, decision D6): STAGED never holds more than N records, only the
earliest staged ones go, OVF is set exactly when some went or it was set before, and nothing else happens. -/
def Obligations.StageDropsTheEarliest : Prop :=
  ∀ (p : Point) (s : State), ∃ dropped : List Point,
    Trimmed s.capacity (s.staged ++ [p]) dropped (stage p s).staged ∧
    ((stage p s).ovf = true ↔ s.ovf = true ∨ dropped ≠ []) ∧
    stage p s = { s with staged := (stage p s).staged, ovf := (stage p s).ovf }

/-- Capping STAGED is invisible (42_point_engine.md section 3): LIVE and OVF after the next step are the same as if all the
records had been staged without a cap. -/
def Obligations.CappingStagedIsInvisible : Prop :=
  ∀ (ps : List Point) (s : State),
    (pointStep (ps.foldl (fun u p => stage p u) s)).live = (pointStep { s with staged := s.staged ++ ps }).live ∧
    (pointStep (ps.foldl (fun u p => stage p u) s)).ovf = (pointStep { s with staged := s.staged ++ ps }).ovf

/-- Without overflow the capacity has no effect (42_point_engine.md section 3, decision D6): a run that ends with OVF clear is, in
all it did, the run of the original design without a capacity. -/
def Obligations.CapacityIsInvisibleWithoutOverflow : Prop :=
  ∀ (ws : List Word) (s t : State), feed ws s = .next t → NoOverflow t →
    feed ws { s with capacity := .unbounded } = .next { t with capacity := .unbounded }

/-- The lifetime law (42_point_engine.md section 4): without capacity removal, a point admitted with age A is in LIVE after
each of exactly `max(1, ceil((C - A) / F))` steps, the admitting one first, with the ages A, A + F, and so on; and a point that
was live before is there as long as its age stays below C. No other point is there. -/
def Obligations.LifetimeOfEveryPoint : Prop :=
  ∀ (s : State) (k : Nat), s.capacity = .unbounded → 1 ≤ s.frameInterval →
    (pointSteps (k + 1) s).live =
      s.live.filterMap (fun p =>
        if p.age + ((k + 1 : Nat) : Int) * s.frameInterval < s.decayCeiling then
          some { p with age := p.age + ((k + 1 : Nat) : Int) * s.frameInterval } else none) ++
      s.staged.filterMap (fun p =>
        if k < lifetime s.frameInterval s.decayCeiling p.age then
          some { p with age := p.age + (k : Int) * s.frameInterval } else none)

/-- The closed form of age (42_point_engine.md section 4): a point's arrival time, `m * F - age`, is the absolute time T just
after its own `dt` was added, never changes, and decides when the point is removed: by step `m` when `m * F - t >= C`. -/
def Obligations.ArrivalTimesAreKept : Prop :=
  (∀ (dt : BitVec 9) (x y : BitVec 10) (i : BitVec 3) (s t : State), exec (.plot dt x y i) s = .next t →
    liveArrivals t = liveArrivals s ∧
    stagedArrivals t = takeLast s.capacity (stagedArrivals s ++ [(absoluteTime t : Int)])) ∧
  (∀ s : State,
    liveArrivals (framePass s) =
      takeLast s.capacity
        ((liveArrivals s).filter
          (fun a => decide ((frameCount (framePass s) : Int) * s.frameInterval - a < s.decayCeiling)) ++
        stagedArrivals s) ∧
    stagedArrivals (framePass s) = [])

/-- The order law (42_point_engine.md section 4): while ages along LIVE do not increase, CULL removes a front part of it. -/
def Obligations.CullRemovesAFrontPart : Prop :=
  ∀ s : State, agesFall (s.live.map (fun p => p.age)) →
    ∃ gone : List Point, gone ++ (cullLive (ageLive s)).live = (ageLive s).live ∧
      ∀ p ∈ gone, s.decayCeiling ≤ p.age

/-! ## Invariants -/

/-- The reset state meets the invariant, whatever admitted configuration is presented. The reset values are the spec's own
decision D9; N unbounded in `State.reset` is the model's choice (log entry 2). -/
def Obligations.InvariantAtReset : Prop :=
  Inv State.reset ∧ ∀ (f : Nat) (c : Int) (n : Config.Capacity), ConfigOk (bootState f c n) → Inv (bootState f c n)

/-- Every step keeps the invariant, from every state that meets it and under every move of the environment: the clock
invariant, the staging invariant, the capacity, the age ranges and the age order, nothing at the origin, LIVE the last frame,
and the same of every frame event. -/
def Obligations.EveryStepKeepsTheInvariant : Prop :=
  ∀ s t : State, Inv s → step s = .next t → Inv t

/-- Every state that some word sequence reaches from a reset state by the atomic procedure meets the invariant and is IDLE
with `CLK < F`: what the premise START_REACHABLE of 70_reset_and_hazards.md section 2 says. -/
def Obligations.ReachableStatesAreSafe : Prop :=
  ∀ s : State, StartReachable s → Inv s ∧ s.ph = .idle ∧ s.clk < s.frameInterval

/-- The derived widths are enough (40_decoder_commands.md section 6, 42_point_engine.md section 4): 33 bits for CLK while
`F <= 2^32`, and 19 bits in two's complement for every age at the default F and C, inside a step as well. -/
def Obligations.DerivedWidthsAreEnough : Prop :=
  ∀ s : State, Inv s →
    (s.frameInterval ≤ 2 ^ 32 → s.clk < 2 ^ Config.clkWidth) ∧
    (s.frameInterval = 33333 → s.decayCeiling = 200000 →
      (∀ p ∈ s.staged, -(2 ^ (Config.ageWidth - 1)) ≤ p.age ∧ p.age < 2 ^ (Config.ageWidth - 1)) ∧
      (∀ p ∈ s.live, -(2 ^ (Config.ageWidth - 1)) ≤ p.age ∧ p.age < 2 ^ (Config.ageWidth - 1)) ∧
      (∀ p ∈ (ageLive s).live, -(2 ^ (Config.ageWidth - 1)) ≤ p.age ∧ p.age < 2 ^ (Config.ageWidth - 1)))

/-- While a frame is shown the compositor reads exactly the records of the frame event that was emitted last, all of them, and
nothing is staged (10_state.md sections 6 and 8, 41_frame_drain.md section 2); in the other phases it reads nothing, which is
the model's choice (log entry 17). The block offers to take a word exactly when it is not busy, and shows a frame only when it is. -/
def Obligations.CompositorReadsTheLastFrame : Prop :=
  ∀ s : State, Inv s →
    (s.ph = .draw → ∃ f fs, s.frames = f :: fs ∧ s.staged = [] ∧ readCount s = some f.length ∧
      ∀ k, readPoint s k = f[k]?) ∧
    (s.ph ≠ .draw → readCount s = none ∧ ∀ k, readPoint s k = none) ∧
    (cmdReady s = !busy s) ∧ (frameValid s = true → busy s = true)

/-! ## The machine as a whole -/

/-- What reset leaves: the values of 10_state.md section 7, which are the spec's own decision D9, with the default F and C of
rules R17 and R18. N unbounded is the model's DESIGN CHOICE (log entry 2), and no port level is claimed. -/
def Obligations.ResetStateValues : Prop :=
  State.reset.clk = 0 ∧ State.reset.esc = .normal ∧ State.reset.staged = [] ∧ State.reset.live = [] ∧
  State.reset.ovf = false ∧ State.reset.ph = .idle ∧ trace State.reset = [] ∧ frameCount State.reset = 0 ∧
  absoluteTime State.reset = 0 ∧ State.reset.frameInterval = 33333 ∧ State.reset.decayCeiling = 200000 ∧
  resetBlock State.reset = State.reset

/-- Reset outranks everything (70_reset_and_hazards.md section 1, decisions D9 and D16): in any phase, with a word in progress
or offered, the state becomes the reset state, F and C are sampled, no word is taken and no frame event emitted; N and the
ports stay. -/
def Obligations.ResetOutranksEverything : Prop :=
  ∀ s e : State, environment s = .next e → e.rst = true →
    step s = .next { e with
      clk := 0
      esc := .normal
      staged := []
      live := []
      ovf := false
      ph := .idle
      frames := []
      frameInterval := e.cfgFrameInterval.toNat
      decayCeiling := e.cfgDecayCeiling }

/-- OVF is sticky (10_state.md section 3, decision D6): only reset clears it. -/
def Obligations.OnlyResetClearsOvf : Prop :=
  ∀ s e t : State, environment s = .next e → step s = .next t → s.ovf = true → t.ovf = false → e.rst = true

/-- The configuration is constant (10_state.md section 4, decision D10): F and C change only in reset, and N never. -/
def Obligations.OnlyResetChangesConfiguration : Prop :=
  ∀ s t : State, step s = .next t →
    t.capacity = s.capacity ∧
    (t.rst = false → t.frameInterval = s.frameInterval ∧ t.decayCeiling = s.decayCeiling)

/-- LIVE never changes between two frame events (10_state.md section 3): outside reset a step either leaves LIVE and the trace
alone, or it is a drain pass that emits the new LIVE and goes to DRAW. -/
def Obligations.LiveChangesOnlyWithAFrame : Prop :=
  ∀ s t : State, step s = .next t → t.rst = false →
    (t.live = s.live ∧ t.frames = s.frames) ∨ (t.frames = t.live :: s.frames ∧ s.ph = .drain ∧ t.ph = .draw)

/-- The stream read (20_memory.md section 2): a step takes no word, or it takes the one that is first, and then the block was
IDLE and out of reset. No word is skipped, repeated, reordered or put back, and a busy block leaves the offered words alone. -/
def Obligations.WordsAreTakenOnceInOrder : Prop :=
  ∀ s e t : State, environment s = .next e → step s = .next t →
    t.stream = e.stream ∨ (e.ph = .idle ∧ e.rst = false ∧ ∃ w, e.stream = w :: t.stream)

/-- Time comes only from the stream (10_state.md section 6, 70_reset_and_hazards.md section 2): outside reset the absolute time
T grows by exactly the amount of the word a step takes, and by nothing else; so it never decreases. -/
def Obligations.OnlyWordsMoveTime : Prop :=
  ∀ s e t : State, environment s = .next e → step s = .next t → t.rst = false →
    absoluteTime t = absoluteTime s +
      (if e.ph = .idle then (match e.stream with | [] => 0 | w :: _ => timeAmount (decode e.esc w)) else 0)

/-- No word, no state and no admitted parameter makes the block stop (60_exceptions.md section 1). Every command body answers a next
state in every state, with operands no word has as well (log entry 9); and a step answers one whenever the environment's move is no
refused breach and the configuration is admitted, or reset is held. Which moves are breaches is `breach` (log entry 13), and that a
step in reset goes on under an F or N that is not admitted is the model's choice (log entry 7). -/
def Obligations.AdmittedInputNeverStops : Prop :=
  (∀ (i : Instr) (s : State), ∃ t, exec i s = .next t) ∧
  (∀ s : State, (∀ m ms, s.moves = m :: ms → breach m s = false) →
    (ConfigOk s ∨ (s.rst = true ∧ ∀ ms, s.moves ≠ .releaseReset :: ms)) → ∃ t, step s = .next t)

/-- What is refused, and only by name (70_reset_and_hazards.md section 2, decisions D6 and D10): an F below 1 and an N below 1
out of reset, a change of F or C in flight, and an offered word taken back out of reset. Where in a run each refusal falls is the
model's choice (log entries 7, 12 and 13). -/
def Obligations.BreachesAreRefused : Prop :=
  ∀ s : State, s.rst = false →
    (s.frameInterval = 0 → s.moves = [] → step s = .refused .frameIntervalBelowOne) ∧
    (s.frameInterval = 0 → ∀ w, runWord w s = .refused .frameIntervalBelowOne) ∧
    (1 ≤ s.frameInterval → s.capacity = .bounded 0 → s.moves = [] → step s = .refused .capacityBelowOne) ∧
    (∀ f c ms, s.moves = .presentConfig f c :: ms → f ≠ s.cfgFrameInterval ∨ c ≠ s.cfgDecayCeiling →
      step s = .refused .configChangedInFlight) ∧
    (∀ n ms, s.moves = .withdraw n :: ms → s.stream.take n ≠ [] → step s = .refused .offeredWordWithdrawn)

/-- A compositor that never signals done holds the block in DRAW for ever, with the whole state as it is (41_frame_drain.md
section 2, decision D11). -/
def Obligations.StalledCompositorHoldsTheBlock : Prop :=
  ∀ (k : Nat) (s : State), s.rst = false → ConfigOk s → s.ph = .draw → s.frameReady = false → s.moves = [] →
    runSteps k s = .next s

/-- When the stream stops after an ESC word, the block stays IDLE with ESC pending for any number of steps, and the next word,
whenever it comes and whatever it is, is taken as the payload (70_reset_and_hazards.md section 2). That the step which brings the
word also takes it and leaves the block in DRAIN is the spec's own decision D11 (41_frame_drain.md section 2) and the model's form
of a step (log entries 4 and 5). -/
def Obligations.PendingEscapeNeverTimesOut : Prop :=
  ∀ (k : Nat) (w : Word) (s : State), s.rst = false → ConfigOk s → s.ph = .idle → s.esc = .escapePending → s.stream = [] →
    s.moves = List.replicate k .quiet ++ [.deliver [w]] →
    runSteps k s = .next { s with moves := [.deliver [w]] } ∧
    runSteps (k + 1) s = .next { s with
      moves := []
      esc := .normal
      clk := s.clk + w.toNat
      ph := .drain }
end

