-- ==== Sys2Proof/Laws/Capacity.lean ====
section
/-! SUPPORT. What the capacity trim of rule R115 does to a sequence. -/

namespace Sys2Proof.Machine

@[simp] theorem takeLast_unbounded {α : Type} (l : List α) : takeLast .unbounded l = l := rfl

@[simp] theorem overCapacity_unbounded (len : Nat) : overCapacity .unbounded len = false := rfl

@[simp] theorem overCapacity_bounded (k len : Nat) : overCapacity (.bounded k) len = decide (k < len) := rfl

@[simp] theorem ovfAfter_eq_true (n : Config.Capacity) (len : Nat) (b : Bool) :
    ovfAfter n len b = true ↔ b = true ∨ overCapacity n len = true := by
  simp [ovfAfter]

theorem takeLast_suffix {α : Type} (n : Config.Capacity) (l : List α) : takeLast n l <:+ l := by
  cases n with
  | unbounded => exact List.suffix_refl l
  | bounded k => exact List.drop_suffix _ _

theorem mem_of_mem_takeLast {α : Type} {n : Config.Capacity} {l : List α} {a : α} (h : a ∈ takeLast n l) : a ∈ l :=
  (takeLast_suffix n l).subset h

theorem takeLast_fits {α : Type} (n : Config.Capacity) (l : List α) : overCapacity n (takeLast n l).length = false := by
  cases n with
  | unbounded => rfl
  | bounded k => simp [takeLast]; omega

theorem takeLast_of_fits {α : Type} {n : Config.Capacity} {l : List α} (h : overCapacity n l.length = false) :
    takeLast n l = l := by
  cases n with
  | unbounded => rfl
  | bounded k =>
    have : l.length - k = 0 := by simp at h; omega
    simp [takeLast, this]

theorem takeLast_map {α β : Type} (n : Config.Capacity) (f : α → β) (l : List α) :
    takeLast n (l.map f) = (takeLast n l).map f := by
  cases n <;> simp [takeLast]

theorem takeLast_nil {α : Type} (n : Config.Capacity) : takeLast n ([] : List α) = [] := by
  cases n <;> simp [takeLast]

/-- With an admitted capacity the element appended last is kept. -/
theorem takeLast_concat {α : Type} {n : Config.Capacity} (h : capacityAdmitted n = true) (l : List α) (a : α) :
    ∃ l', takeLast n (l ++ [a]) = l' ++ [a] := by
  cases n with
  | unbounded => exact ⟨l, rfl⟩
  | bounded k =>
    have hk : 1 ≤ k := by simpa [capacityAdmitted] using h
    refine ⟨l.drop (l.length + 1 - k), ?_⟩
    simp [takeLast, List.drop_append_of_le_length (show l.length + 1 - k ≤ l.length by omega)]

/-- Trimming a part beforehand does not show after the whole is trimmed. -/
theorem takeLast_append_takeLast {α : Type} (n : Config.Capacity) (a b : List α) :
    takeLast n (a ++ takeLast n b) = takeLast n (a ++ b) := by
  cases n with
  | unbounded => rfl
  | bounded k =>
    simp only [takeLast, List.length_append, List.length_drop]
    by_cases h : b.length ≤ k
    · have : b.length - k = 0 := by omega
      simp [this]
    · rw [List.drop_append, List.drop_append,
        show a.length + (b.length - (b.length - k)) - k - a.length = 0 by omega,
        show a.length + b.length - k - a.length = b.length - k by omega]
      simp
      omega

/-- What the trim drops: something exactly when the sequence does not fit. -/
theorem takeLast_trimmed (n : Config.Capacity) (l : List Point) :
    ∃ d, Trimmed n l d (takeLast n l) ∧ (overCapacity n l.length = true ↔ d ≠ []) := by
  cases n with
  | unbounded => exact ⟨[], ⟨rfl, fun _ => rfl, by simp⟩, by simp⟩
  | bounded k =>
    refine ⟨l.take (l.length - k), ⟨by simp [takeLast], by simp, ?_⟩, ?_⟩
    · intro j hj
      cases hj
      simp [takeLast]
      omega
    · simp only [overCapacity_bounded, decide_eq_true_eq, ne_eq, List.take_eq_nil_iff, not_or]
      constructor
      · intro h
        exact ⟨by omega, by rintro rfl; simp at h⟩
      · rintro ⟨h, _⟩
        omega

end Sys2Proof.Machine
end

