-- ==== Sys2Proof/Laws/Core.lean ====
section
/-! SUPPORT. The host's run of the core is the model's own `runSteps`. -/

namespace Sys2Proof.Machine

theorem core_run_eq (k : Nat) (s : State) : Host.Core.run Sys2Proof.core k s = runSteps k s := by
  induction k generalizing s with
  | zero => rfl
  | succ k ih =>
    cases h : step s with
    | next u =>
      have hc : Sys2Proof.core.step s = .next u := h
      have hrun : Host.Core.run Sys2Proof.core (k + 1) s = Host.Core.run Sys2Proof.core k u := by simp only [Host.Core.run, hc]
      rw [hrun, ih u, runSteps, h]
      rfl
    | fault r => cases r
    | refused r =>
      have hc : Sys2Proof.core.step s = .refused r := h
      have hrun : Host.Core.run Sys2Proof.core (k + 1) s = .refused r := by simp only [Host.Core.run, hc]
      rw [hrun, runSteps, h]
      rfl

end Sys2Proof.Machine
end

