-- ==== Sys2Proof/Laws/State.lean ====
section
/-! SUPPORT. What each named operation does to each field it touches or leaves, one lemma per field, true by rfl, so that no
later proof unfolds a record update. -/

namespace Sys2Proof.Machine

@[simp] theorem addTime_clk (t : Nat) (s : State) : (addTime t s).clk = s.clk + t := rfl
@[simp] theorem addTime_esc (t : Nat) (s : State) : (addTime t s).esc = s.esc := rfl
@[simp] theorem addTime_staged (t : Nat) (s : State) : (addTime t s).staged = s.staged := rfl
@[simp] theorem addTime_live (t : Nat) (s : State) : (addTime t s).live = s.live := rfl
@[simp] theorem addTime_ovf (t : Nat) (s : State) : (addTime t s).ovf = s.ovf := rfl
@[simp] theorem addTime_ph (t : Nat) (s : State) : (addTime t s).ph = s.ph := rfl
@[simp] theorem addTime_frameInterval (t : Nat) (s : State) : (addTime t s).frameInterval = s.frameInterval := rfl
@[simp] theorem addTime_decayCeiling (t : Nat) (s : State) : (addTime t s).decayCeiling = s.decayCeiling := rfl
@[simp] theorem addTime_capacity (t : Nat) (s : State) : (addTime t s).capacity = s.capacity := rfl
@[simp] theorem addTime_frames (t : Nat) (s : State) : (addTime t s).frames = s.frames := rfl
@[simp] theorem addTime_rst (t : Nat) (s : State) : (addTime t s).rst = s.rst := rfl
@[simp] theorem addTime_cfgFrameInterval (t : Nat) (s : State) : (addTime t s).cfgFrameInterval = s.cfgFrameInterval := rfl
@[simp] theorem addTime_cfgDecayCeiling (t : Nat) (s : State) : (addTime t s).cfgDecayCeiling = s.cfgDecayCeiling := rfl
@[simp] theorem addTime_frameReady (t : Nat) (s : State) : (addTime t s).frameReady = s.frameReady := rfl
@[simp] theorem addTime_stream (t : Nat) (s : State) : (addTime t s).stream = s.stream := rfl
@[simp] theorem addTime_moves (t : Nat) (s : State) : (addTime t s).moves = s.moves := rfl

@[simp] theorem subtractFrame_clk (s : State) : (subtractFrame s).clk = s.clk - s.frameInterval := rfl
@[simp] theorem subtractFrame_esc (s : State) : (subtractFrame s).esc = s.esc := rfl
@[simp] theorem subtractFrame_staged (s : State) : (subtractFrame s).staged = s.staged := rfl
@[simp] theorem subtractFrame_live (s : State) : (subtractFrame s).live = s.live := rfl
@[simp] theorem subtractFrame_ovf (s : State) : (subtractFrame s).ovf = s.ovf := rfl
@[simp] theorem subtractFrame_ph (s : State) : (subtractFrame s).ph = s.ph := rfl
@[simp] theorem subtractFrame_frameInterval (s : State) : (subtractFrame s).frameInterval = s.frameInterval := rfl
@[simp] theorem subtractFrame_decayCeiling (s : State) : (subtractFrame s).decayCeiling = s.decayCeiling := rfl
@[simp] theorem subtractFrame_capacity (s : State) : (subtractFrame s).capacity = s.capacity := rfl
@[simp] theorem subtractFrame_frames (s : State) : (subtractFrame s).frames = s.frames := rfl
@[simp] theorem subtractFrame_rst (s : State) : (subtractFrame s).rst = s.rst := rfl
@[simp] theorem subtractFrame_cfgFrameInterval (s : State) : (subtractFrame s).cfgFrameInterval = s.cfgFrameInterval := rfl
@[simp] theorem subtractFrame_cfgDecayCeiling (s : State) : (subtractFrame s).cfgDecayCeiling = s.cfgDecayCeiling := rfl
@[simp] theorem subtractFrame_frameReady (s : State) : (subtractFrame s).frameReady = s.frameReady := rfl
@[simp] theorem subtractFrame_stream (s : State) : (subtractFrame s).stream = s.stream := rfl
@[simp] theorem subtractFrame_moves (s : State) : (subtractFrame s).moves = s.moves := rfl

@[simp] theorem emitFrame_clk (s : State) : (emitFrame s).clk = s.clk := rfl
@[simp] theorem emitFrame_esc (s : State) : (emitFrame s).esc = s.esc := rfl
@[simp] theorem emitFrame_staged (s : State) : (emitFrame s).staged = s.staged := rfl
@[simp] theorem emitFrame_live (s : State) : (emitFrame s).live = s.live := rfl
@[simp] theorem emitFrame_ovf (s : State) : (emitFrame s).ovf = s.ovf := rfl
@[simp] theorem emitFrame_ph (s : State) : (emitFrame s).ph = s.ph := rfl
@[simp] theorem emitFrame_frameInterval (s : State) : (emitFrame s).frameInterval = s.frameInterval := rfl
@[simp] theorem emitFrame_decayCeiling (s : State) : (emitFrame s).decayCeiling = s.decayCeiling := rfl
@[simp] theorem emitFrame_capacity (s : State) : (emitFrame s).capacity = s.capacity := rfl
@[simp] theorem emitFrame_frames (s : State) : (emitFrame s).frames = s.live :: s.frames := rfl
@[simp] theorem emitFrame_rst (s : State) : (emitFrame s).rst = s.rst := rfl
@[simp] theorem emitFrame_cfgFrameInterval (s : State) : (emitFrame s).cfgFrameInterval = s.cfgFrameInterval := rfl
@[simp] theorem emitFrame_cfgDecayCeiling (s : State) : (emitFrame s).cfgDecayCeiling = s.cfgDecayCeiling := rfl
@[simp] theorem emitFrame_frameReady (s : State) : (emitFrame s).frameReady = s.frameReady := rfl
@[simp] theorem emitFrame_stream (s : State) : (emitFrame s).stream = s.stream := rfl
@[simp] theorem emitFrame_moves (s : State) : (emitFrame s).moves = s.moves := rfl

@[simp] theorem setEscPending_clk (s : State) : (setEscPending s).clk = s.clk := rfl
@[simp] theorem setEscPending_esc (s : State) : (setEscPending s).esc = .escapePending := rfl
@[simp] theorem setEscPending_staged (s : State) : (setEscPending s).staged = s.staged := rfl
@[simp] theorem setEscPending_live (s : State) : (setEscPending s).live = s.live := rfl
@[simp] theorem setEscPending_ovf (s : State) : (setEscPending s).ovf = s.ovf := rfl
@[simp] theorem setEscPending_ph (s : State) : (setEscPending s).ph = s.ph := rfl
@[simp] theorem setEscPending_frameInterval (s : State) : (setEscPending s).frameInterval = s.frameInterval := rfl
@[simp] theorem setEscPending_decayCeiling (s : State) : (setEscPending s).decayCeiling = s.decayCeiling := rfl
@[simp] theorem setEscPending_capacity (s : State) : (setEscPending s).capacity = s.capacity := rfl
@[simp] theorem setEscPending_frames (s : State) : (setEscPending s).frames = s.frames := rfl
@[simp] theorem setEscPending_rst (s : State) : (setEscPending s).rst = s.rst := rfl
@[simp] theorem setEscPending_cfgFrameInterval (s : State) : (setEscPending s).cfgFrameInterval = s.cfgFrameInterval := rfl
@[simp] theorem setEscPending_cfgDecayCeiling (s : State) : (setEscPending s).cfgDecayCeiling = s.cfgDecayCeiling := rfl
@[simp] theorem setEscPending_frameReady (s : State) : (setEscPending s).frameReady = s.frameReady := rfl
@[simp] theorem setEscPending_stream (s : State) : (setEscPending s).stream = s.stream := rfl
@[simp] theorem setEscPending_moves (s : State) : (setEscPending s).moves = s.moves := rfl

@[simp] theorem clearEsc_clk (s : State) : (clearEsc s).clk = s.clk := rfl
@[simp] theorem clearEsc_esc (s : State) : (clearEsc s).esc = .normal := rfl
@[simp] theorem clearEsc_staged (s : State) : (clearEsc s).staged = s.staged := rfl
@[simp] theorem clearEsc_live (s : State) : (clearEsc s).live = s.live := rfl
@[simp] theorem clearEsc_ovf (s : State) : (clearEsc s).ovf = s.ovf := rfl
@[simp] theorem clearEsc_ph (s : State) : (clearEsc s).ph = s.ph := rfl
@[simp] theorem clearEsc_frameInterval (s : State) : (clearEsc s).frameInterval = s.frameInterval := rfl
@[simp] theorem clearEsc_decayCeiling (s : State) : (clearEsc s).decayCeiling = s.decayCeiling := rfl
@[simp] theorem clearEsc_capacity (s : State) : (clearEsc s).capacity = s.capacity := rfl
@[simp] theorem clearEsc_frames (s : State) : (clearEsc s).frames = s.frames := rfl
@[simp] theorem clearEsc_rst (s : State) : (clearEsc s).rst = s.rst := rfl
@[simp] theorem clearEsc_cfgFrameInterval (s : State) : (clearEsc s).cfgFrameInterval = s.cfgFrameInterval := rfl
@[simp] theorem clearEsc_cfgDecayCeiling (s : State) : (clearEsc s).cfgDecayCeiling = s.cfgDecayCeiling := rfl
@[simp] theorem clearEsc_frameReady (s : State) : (clearEsc s).frameReady = s.frameReady := rfl
@[simp] theorem clearEsc_stream (s : State) : (clearEsc s).stream = s.stream := rfl
@[simp] theorem clearEsc_moves (s : State) : (clearEsc s).moves = s.moves := rfl

@[simp] theorem stage_clk (p : Point) (s : State) : (stage p s).clk = s.clk := rfl
@[simp] theorem stage_esc (p : Point) (s : State) : (stage p s).esc = s.esc := rfl
@[simp] theorem stage_staged (p : Point) (s : State) : (stage p s).staged = takeLast s.capacity (s.staged ++ [p]) := rfl
@[simp] theorem stage_live (p : Point) (s : State) : (stage p s).live = s.live := rfl
@[simp] theorem stage_ovf (p : Point) (s : State) : (stage p s).ovf = ovfAfter s.capacity (s.staged ++ [p]).length s.ovf := rfl
@[simp] theorem stage_ph (p : Point) (s : State) : (stage p s).ph = s.ph := rfl
@[simp] theorem stage_frameInterval (p : Point) (s : State) : (stage p s).frameInterval = s.frameInterval := rfl
@[simp] theorem stage_decayCeiling (p : Point) (s : State) : (stage p s).decayCeiling = s.decayCeiling := rfl
@[simp] theorem stage_capacity (p : Point) (s : State) : (stage p s).capacity = s.capacity := rfl
@[simp] theorem stage_frames (p : Point) (s : State) : (stage p s).frames = s.frames := rfl
@[simp] theorem stage_rst (p : Point) (s : State) : (stage p s).rst = s.rst := rfl
@[simp] theorem stage_cfgFrameInterval (p : Point) (s : State) : (stage p s).cfgFrameInterval = s.cfgFrameInterval := rfl
@[simp] theorem stage_cfgDecayCeiling (p : Point) (s : State) : (stage p s).cfgDecayCeiling = s.cfgDecayCeiling := rfl
@[simp] theorem stage_frameReady (p : Point) (s : State) : (stage p s).frameReady = s.frameReady := rfl
@[simp] theorem stage_stream (p : Point) (s : State) : (stage p s).stream = s.stream := rfl
@[simp] theorem stage_moves (p : Point) (s : State) : (stage p s).moves = s.moves := rfl

@[simp] theorem ageLive_clk (s : State) : (ageLive s).clk = s.clk := rfl
@[simp] theorem ageLive_esc (s : State) : (ageLive s).esc = s.esc := rfl
@[simp] theorem ageLive_staged (s : State) : (ageLive s).staged = s.staged := rfl
@[simp] theorem ageLive_live (s : State) : (ageLive s).live = s.live.map (olderBy s.frameInterval) := rfl
@[simp] theorem ageLive_ovf (s : State) : (ageLive s).ovf = s.ovf := rfl
@[simp] theorem ageLive_ph (s : State) : (ageLive s).ph = s.ph := rfl
@[simp] theorem ageLive_frameInterval (s : State) : (ageLive s).frameInterval = s.frameInterval := rfl
@[simp] theorem ageLive_decayCeiling (s : State) : (ageLive s).decayCeiling = s.decayCeiling := rfl
@[simp] theorem ageLive_capacity (s : State) : (ageLive s).capacity = s.capacity := rfl
@[simp] theorem ageLive_frames (s : State) : (ageLive s).frames = s.frames := rfl
@[simp] theorem ageLive_rst (s : State) : (ageLive s).rst = s.rst := rfl
@[simp] theorem ageLive_cfgFrameInterval (s : State) : (ageLive s).cfgFrameInterval = s.cfgFrameInterval := rfl
@[simp] theorem ageLive_cfgDecayCeiling (s : State) : (ageLive s).cfgDecayCeiling = s.cfgDecayCeiling := rfl
@[simp] theorem ageLive_frameReady (s : State) : (ageLive s).frameReady = s.frameReady := rfl
@[simp] theorem ageLive_stream (s : State) : (ageLive s).stream = s.stream := rfl
@[simp] theorem ageLive_moves (s : State) : (ageLive s).moves = s.moves := rfl

@[simp] theorem cullLive_clk (s : State) : (cullLive s).clk = s.clk := rfl
@[simp] theorem cullLive_esc (s : State) : (cullLive s).esc = s.esc := rfl
@[simp] theorem cullLive_staged (s : State) : (cullLive s).staged = s.staged := rfl
@[simp] theorem cullLive_live (s : State) : (cullLive s).live = s.live.filter (survives s.decayCeiling) := rfl
@[simp] theorem cullLive_ovf (s : State) : (cullLive s).ovf = s.ovf := rfl
@[simp] theorem cullLive_ph (s : State) : (cullLive s).ph = s.ph := rfl
@[simp] theorem cullLive_frameInterval (s : State) : (cullLive s).frameInterval = s.frameInterval := rfl
@[simp] theorem cullLive_decayCeiling (s : State) : (cullLive s).decayCeiling = s.decayCeiling := rfl
@[simp] theorem cullLive_capacity (s : State) : (cullLive s).capacity = s.capacity := rfl
@[simp] theorem cullLive_frames (s : State) : (cullLive s).frames = s.frames := rfl
@[simp] theorem cullLive_rst (s : State) : (cullLive s).rst = s.rst := rfl
@[simp] theorem cullLive_cfgFrameInterval (s : State) : (cullLive s).cfgFrameInterval = s.cfgFrameInterval := rfl
@[simp] theorem cullLive_cfgDecayCeiling (s : State) : (cullLive s).cfgDecayCeiling = s.cfgDecayCeiling := rfl
@[simp] theorem cullLive_frameReady (s : State) : (cullLive s).frameReady = s.frameReady := rfl
@[simp] theorem cullLive_stream (s : State) : (cullLive s).stream = s.stream := rfl
@[simp] theorem cullLive_moves (s : State) : (cullLive s).moves = s.moves := rfl

@[simp] theorem admitStaged_clk (s : State) : (admitStaged s).clk = s.clk := rfl
@[simp] theorem admitStaged_esc (s : State) : (admitStaged s).esc = s.esc := rfl
@[simp] theorem admitStaged_staged (s : State) : (admitStaged s).staged = [] := rfl
@[simp] theorem admitStaged_live (s : State) : (admitStaged s).live = takeLast s.capacity (s.live ++ s.staged) := rfl
@[simp] theorem admitStaged_ovf (s : State) : (admitStaged s).ovf = ovfAfter s.capacity (s.live ++ s.staged).length s.ovf := rfl
@[simp] theorem admitStaged_ph (s : State) : (admitStaged s).ph = s.ph := rfl
@[simp] theorem admitStaged_frameInterval (s : State) : (admitStaged s).frameInterval = s.frameInterval := rfl
@[simp] theorem admitStaged_decayCeiling (s : State) : (admitStaged s).decayCeiling = s.decayCeiling := rfl
@[simp] theorem admitStaged_capacity (s : State) : (admitStaged s).capacity = s.capacity := rfl
@[simp] theorem admitStaged_frames (s : State) : (admitStaged s).frames = s.frames := rfl
@[simp] theorem admitStaged_rst (s : State) : (admitStaged s).rst = s.rst := rfl
@[simp] theorem admitStaged_cfgFrameInterval (s : State) : (admitStaged s).cfgFrameInterval = s.cfgFrameInterval := rfl
@[simp] theorem admitStaged_cfgDecayCeiling (s : State) : (admitStaged s).cfgDecayCeiling = s.cfgDecayCeiling := rfl
@[simp] theorem admitStaged_frameReady (s : State) : (admitStaged s).frameReady = s.frameReady := rfl
@[simp] theorem admitStaged_stream (s : State) : (admitStaged s).stream = s.stream := rfl
@[simp] theorem admitStaged_moves (s : State) : (admitStaged s).moves = s.moves := rfl

@[simp] theorem resetBlock_clk (s : State) : (resetBlock s).clk = 0 := rfl
@[simp] theorem resetBlock_esc (s : State) : (resetBlock s).esc = .normal := rfl
@[simp] theorem resetBlock_staged (s : State) : (resetBlock s).staged = [] := rfl
@[simp] theorem resetBlock_live (s : State) : (resetBlock s).live = [] := rfl
@[simp] theorem resetBlock_ovf (s : State) : (resetBlock s).ovf = false := rfl
@[simp] theorem resetBlock_ph (s : State) : (resetBlock s).ph = .idle := rfl
@[simp] theorem resetBlock_frameInterval (s : State) : (resetBlock s).frameInterval = s.cfgFrameInterval.toNat := rfl
@[simp] theorem resetBlock_decayCeiling (s : State) : (resetBlock s).decayCeiling = s.cfgDecayCeiling := rfl
@[simp] theorem resetBlock_capacity (s : State) : (resetBlock s).capacity = s.capacity := rfl
@[simp] theorem resetBlock_frames (s : State) : (resetBlock s).frames = [] := rfl
@[simp] theorem resetBlock_rst (s : State) : (resetBlock s).rst = s.rst := rfl
@[simp] theorem resetBlock_cfgFrameInterval (s : State) : (resetBlock s).cfgFrameInterval = s.cfgFrameInterval := rfl
@[simp] theorem resetBlock_cfgDecayCeiling (s : State) : (resetBlock s).cfgDecayCeiling = s.cfgDecayCeiling := rfl
@[simp] theorem resetBlock_frameReady (s : State) : (resetBlock s).frameReady = s.frameReady := rfl
@[simp] theorem resetBlock_stream (s : State) : (resetBlock s).stream = s.stream := rfl
@[simp] theorem resetBlock_moves (s : State) : (resetBlock s).moves = s.moves := rfl

@[simp] theorem pointStep_clk (s : State) : (pointStep s).clk = s.clk := rfl
@[simp] theorem pointStep_esc (s : State) : (pointStep s).esc = s.esc := rfl
@[simp] theorem pointStep_staged (s : State) : (pointStep s).staged = [] := rfl
@[simp] theorem pointStep_live (s : State) : (pointStep s).live = takeLast s.capacity ((s.live.map (olderBy s.frameInterval)).filter (survives s.decayCeiling) ++ s.staged) := rfl
@[simp] theorem pointStep_ovf (s : State) : (pointStep s).ovf = ovfAfter s.capacity ((s.live.map (olderBy s.frameInterval)).filter (survives s.decayCeiling) ++ s.staged).length s.ovf := rfl
@[simp] theorem pointStep_ph (s : State) : (pointStep s).ph = s.ph := rfl
@[simp] theorem pointStep_frameInterval (s : State) : (pointStep s).frameInterval = s.frameInterval := rfl
@[simp] theorem pointStep_decayCeiling (s : State) : (pointStep s).decayCeiling = s.decayCeiling := rfl
@[simp] theorem pointStep_capacity (s : State) : (pointStep s).capacity = s.capacity := rfl
@[simp] theorem pointStep_frames (s : State) : (pointStep s).frames = s.frames := rfl
@[simp] theorem pointStep_rst (s : State) : (pointStep s).rst = s.rst := rfl
@[simp] theorem pointStep_cfgFrameInterval (s : State) : (pointStep s).cfgFrameInterval = s.cfgFrameInterval := rfl
@[simp] theorem pointStep_cfgDecayCeiling (s : State) : (pointStep s).cfgDecayCeiling = s.cfgDecayCeiling := rfl
@[simp] theorem pointStep_frameReady (s : State) : (pointStep s).frameReady = s.frameReady := rfl
@[simp] theorem pointStep_stream (s : State) : (pointStep s).stream = s.stream := rfl
@[simp] theorem pointStep_moves (s : State) : (pointStep s).moves = s.moves := rfl

@[simp] theorem framePass_clk (s : State) : (framePass s).clk = s.clk - s.frameInterval := rfl
@[simp] theorem framePass_esc (s : State) : (framePass s).esc = s.esc := rfl
@[simp] theorem framePass_staged (s : State) : (framePass s).staged = [] := rfl
@[simp] theorem framePass_live (s : State) : (framePass s).live = (pointStep s).live := rfl
@[simp] theorem framePass_ovf (s : State) : (framePass s).ovf = (pointStep s).ovf := rfl
@[simp] theorem framePass_ph (s : State) : (framePass s).ph = s.ph := rfl
@[simp] theorem framePass_frameInterval (s : State) : (framePass s).frameInterval = s.frameInterval := rfl
@[simp] theorem framePass_decayCeiling (s : State) : (framePass s).decayCeiling = s.decayCeiling := rfl
@[simp] theorem framePass_capacity (s : State) : (framePass s).capacity = s.capacity := rfl
@[simp] theorem framePass_frames (s : State) : (framePass s).frames = (pointStep s).live :: s.frames := rfl
@[simp] theorem framePass_rst (s : State) : (framePass s).rst = s.rst := rfl
@[simp] theorem framePass_cfgFrameInterval (s : State) : (framePass s).cfgFrameInterval = s.cfgFrameInterval := rfl
@[simp] theorem framePass_cfgDecayCeiling (s : State) : (framePass s).cfgDecayCeiling = s.cfgDecayCeiling := rfl
@[simp] theorem framePass_frameReady (s : State) : (framePass s).frameReady = s.frameReady := rfl
@[simp] theorem framePass_stream (s : State) : (framePass s).stream = s.stream := rfl
@[simp] theorem framePass_moves (s : State) : (framePass s).moves = s.moves := rfl

end Sys2Proof.Machine
end

