-- ==== Sys2Proof/Laws/Drain.lean ====
section
/-! SUPPORT. The drain loop: what one pass does, and that fuel beyond CLK changes nothing (rule R100). -/

namespace Sys2Proof.Machine

theorem frameDue_iff (s : State) : frameDue s = true ↔ s.frameInterval ≤ s.clk := by simp [frameDue]

theorem drainLoop_not_due {s : State} (h : s.clk < s.frameInterval) : ∀ fuel, drainLoop fuel s = s
  | 0 => rfl
  | fuel + 1 => by simp [drainLoop, frameDue, Nat.not_le.mpr h]

theorem drainLoop_due {s : State} (h : s.frameInterval ≤ s.clk) (fuel : Nat) :
    drainLoop (fuel + 1) s = drainLoop fuel (framePass s) := by
  simp [drainLoop, frameDue, h]

/-- Any fuel that is at least CLK gives the same result. -/
theorem drainLoop_fuel {s : State} (hF : 1 ≤ s.frameInterval) :
    ∀ {a b : Nat}, s.clk ≤ a → s.clk ≤ b → drainLoop a s = drainLoop b s := by
  intro a
  induction a generalizing s with
  | zero =>
    intro b ha _
    have h : s.clk < s.frameInterval := by omega
    rw [drainLoop_not_due h, drainLoop_not_due h]
  | succ a ih =>
    intro b ha hb
    by_cases h : s.clk < s.frameInterval
    · rw [drainLoop_not_due h, drainLoop_not_due h]
    · obtain ⟨b, rfl⟩ : ∃ c, b = c + 1 := ⟨b - 1, by omega⟩
      rw [drainLoop_due (by omega), drainLoop_due (by omega)]
      exact ih (by simpa using hF) (by simp; omega) (by simp; omega)

/-- A property that holds of a state and that every pass keeps holds after the drain. -/
theorem drainLoop_induction {P : State → Prop} (hstep : ∀ s, s.frameInterval ≤ s.clk → P s → P (framePass s)) :
    ∀ (fuel : Nat) {s : State}, P s → P (drainLoop fuel s)
  | 0, _, h => h
  | fuel + 1, s, h => by
    by_cases hd : s.frameInterval ≤ s.clk
    · rw [drainLoop_due hd]; exact drainLoop_induction hstep fuel (hstep s hd h)
    · rw [drainLoop_not_due (by omega)]; exact h

/-- The loop neither reads nor writes PH. -/
theorem drainLoop_with_phase (p : Phase) : ∀ (fuel : Nat) (s : State),
    drainLoop fuel { s with ph := p } = { drainLoop fuel s with ph := p }
  | 0, _ => rfl
  | fuel + 1, s => by
    by_cases hd : s.frameInterval ≤ s.clk
    · rw [drainLoop_due (s := { s with ph := p }) hd, drainLoop_due hd]
      exact drainLoop_with_phase p fuel (framePass s)
    · have hn : s.clk < s.frameInterval := by omega
      rw [drainLoop_not_due (s := { s with ph := p }) hn, drainLoop_not_due hn]

/-- The loop neither reads nor writes the ports a feeding environment drives. -/
theorem drainLoop_with_ports (v : Bool) (ws : List Word) (ms : List Move) : ∀ (fuel : Nat) (s : State),
    drainLoop fuel { s with frameReady := v, stream := ws, moves := ms } =
      { drainLoop fuel s with frameReady := v, stream := ws, moves := ms }
  | 0, _ => rfl
  | fuel + 1, s => by
    by_cases hd : s.frameInterval ≤ s.clk
    · rw [drainLoop_due (s := { s with frameReady := v, stream := ws, moves := ms }) hd, drainLoop_due hd]
      exact drainLoop_with_ports v ws ms fuel (framePass s)
    · have hn : s.clk < s.frameInterval := by omega
      rw [drainLoop_not_due (s := { s with frameReady := v, stream := ws, moves := ms }) hn, drainLoop_not_due hn]

/-- One word, once its command body is known: the drain behind it. -/
theorem runWord_of_exec {w : Word} {s t : State} (hF : 1 ≤ s.frameInterval) (h : exec (decode s.esc w) s = .next t) :
    runWord w s = .next (drain t) := by
  simp only [runWord]
  rw [if_neg (by omega), h]
  rfl

end Sys2Proof.Machine
end

