-- ==== Sys2Proof/Laws/PerInstr.lean ====
section
/-! SUPPORT. Statements about every command as syntax, one lemma a constructor. Family EncodeFields: which fields the word of a
command holds (rules R61 and R69). -/

namespace Sys2Proof

theorem dtField_toNat (w : Word) : (dtField w).toNat = w.toNat / 2 ^ 23 % 2 ^ 9 := by
  simp [dtField, Nat.shiftRight_eq_div_pow]

theorem iField_toNat (w : Word) : (iField w).toNat = w.toNat / 2 ^ 20 % 2 ^ 3 := by
  simp [iField, Nat.shiftRight_eq_div_pow]

theorem yField_toNat (w : Word) : (yField w).toNat = w.toNat / 2 ^ 10 % 2 ^ 10 := by
  simp [yField, Nat.shiftRight_eq_div_pow]

theorem xField_toNat (w : Word) : (xField w).toNat = w.toNat % 2 ^ 10 := by
  simp [xField]

theorem fillField_toNat (w : Word) : (fillField w).toNat = w.toNat % 2 ^ 23 := by
  simp [fillField]

theorem enc_toNat (dt : BitVec 9) (x y : BitVec 10) (i : BitVec 3) :
    (enc dt x y i).toNat = dt.toNat * 2 ^ 23 + i.toNat * 2 ^ 20 + y.toNat * 2 ^ 10 + x.toNat := by
  have := dt.isLt; have := x.isLt; have := y.isLt; have := i.isLt
  rw [enc, BitVec.toNat_ofNat, Nat.mod_eq_of_lt]
  omega

theorem fields_enc (dt : BitVec 9) (x y : BitVec 10) (i : BitVec 3) :
    dtField (enc dt x y i) = dt ∧ xField (enc dt x y i) = x ∧ yField (enc dt x y i) = y ∧ iField (enc dt x y i) = i := by
  have := dt.isLt; have := x.isLt; have := y.isLt; have := i.isLt
  refine ⟨?_, ?_, ?_, ?_⟩ <;> apply BitVec.eq_of_toNat_eq <;>
    simp only [dtField_toNat, xField_toNat, yField_toNat, iField_toNat, enc_toNat] <;> omega

namespace Laws.EncodeFields

/-- The fields of a command's word are the command's operands, and the fields it has no operand for are the constants of its
class (rule R69). -/
def Statement (i : Instr) : Prop :=
  match i with
  | .raw n => encode i = n
  | .esc fill => dtField (encode i) = Config.dtEsc ∧ fillField (encode i) = fill
  | .blank dt b => dtField (encode i) = dt ∧ iField (encode i) = b ∧ xField (encode i) = 0 ∧ yField (encode i) = 0
  | .plot dt x y b => dtField (encode i) = dt ∧ iField (encode i) = b ∧ xField (encode i) = x ∧ yField (encode i) = y

theorem raw (n : Word) : Statement (.raw n) := rfl

theorem esc (fill : BitVec 23) : Statement (.esc fill) := by
  have := fill.isLt
  have h511 : (511 : BitVec 9).toNat = 511 := rfl
  constructor <;> apply BitVec.eq_of_toNat_eq <;>
    simp only [dtField_toNat, fillField_toNat, encode, BitVec.toNat_ofNat, Config.dtEsc, h511] <;> omega

theorem blank (dt : BitVec 9) (b : BitVec 3) : Statement (.blank dt b) := by
  obtain ⟨h1, h2, h3, h4⟩ := fields_enc dt 0 0 b
  exact ⟨h1, h4, h2, h3⟩

theorem plot (dt : BitVec 9) (x y : BitVec 10) (b : BitVec 3) : Statement (.plot dt x y b) := by
  obtain ⟨h1, h2, h3, h4⟩ := fields_enc dt x y b
  exact ⟨h1, h4, h2, h3⟩

end Laws.EncodeFields

end Sys2Proof
end

