-- ==== Sys2Proof/Laws/Step.lean ====
section
/-! SUPPORT. What a command, a move of the environment and a step can do, said once (rules R88, R105, R163). -/

namespace Sys2Proof.Machine

@[simp] theorem andThen_next (s : State) (f : State → Host.Outcome State Fault Refusal) : andThen (.next s) f = f s := rfl

/-- Two parts in sequence answer a next state only through a next state of the first. -/
theorem andThen_eq_next {o : Host.Outcome State Fault Refusal} {f : State → Host.Outcome State Fault Refusal} {t : State}
    (h : andThen o f = .next t) : ∃ s, o = .next s ∧ f s = .next t := by
  cases o with
  | next s => exact ⟨s, rfl, h⟩
  | fault r => cases r
  | refused r => simp [andThen] at h

/-- The command body of every command always answers, and this is what it answers (rule R88). -/
theorem exec_eq (i : Instr) (s : State) :
    exec i s = .next (match i with
      | .raw n => { s with esc := .normal, clk := s.clk + n.toNat }
      | .esc _ => { s with esc := .escapePending }
      | .blank dt _ => { s with clk := s.clk + dt.toNat }
      | .plot dt x y b => stage (newPoint x y b s.frameInterval (s.clk + dt.toNat)) { s with clk := s.clk + dt.toNat }) := by
  cases i <;> rfl

/-- What every command body answers with: the clock advanced by the command's time amount, and these fields as they were. -/
theorem exec_next (i : Instr) (s : State) : ∃ t, exec i s = .next t ∧ t.clk = s.clk + timeAmount i ∧
    t.frameInterval = s.frameInterval ∧ t.capacity = s.capacity ∧ t.rst = s.rst ∧ t.moves = s.moves ∧
    t.frameReady = s.frameReady ∧ t.ph = s.ph ∧ t.stream = s.stream := by
  refine ⟨_, exec_eq i s, ?_⟩
  cases i <;> exact ⟨rfl, rfl, rfl, rfl, rfl, rfl, rfl, rfl⟩

/-- A move of the environment changes ports only. -/
theorem applyMove_ports {m : Move} {s e : State} (h : applyMove m s = .next e) :
    ∃ r f c v ws, e = { s with rst := r, cfgFrameInterval := f, cfgDecayCeiling := c, frameReady := v, stream := ws } := by
  cases m with
  | quiet => cases h; exact ⟨_, _, _, _, _, rfl⟩
  | deliver ws => cases h; exact ⟨_, _, _, _, _, rfl⟩
  | driveFrameReady l => cases h; exact ⟨_, _, _, _, _, rfl⟩
  | assertReset f c => cases h; exact ⟨_, _, _, _, _, rfl⟩
  | releaseReset => cases h; exact ⟨_, _, _, _, _, rfl⟩
  | presentConfig f c =>
    simp only [applyMove] at h
    split at h
    · cases h; exact ⟨_, _, _, _, _, rfl⟩
    · cases h
  | withdraw n =>
    simp only [applyMove] at h
    split at h
    · cases h; exact ⟨_, _, _, _, _, rfl⟩
    · cases h

/-- The environment changes ports and its own schedule only. -/
theorem environment_ports {s e : State} (h : environment s = .next e) :
    ∃ r f c v ws ms, e = { s with
      rst := r, cfgFrameInterval := f, cfgDecayCeiling := c, frameReady := v, stream := ws, moves := ms } := by
  unfold environment at h
  split at h
  · cases h; exact ⟨_, _, _, _, _, _, rfl⟩
  · obtain ⟨r, f, c, v, ws, rfl⟩ := applyMove_ports h
    exact ⟨r, f, c, v, ws, _, rfl⟩

/-- Everything the block's action can do when it answers a next state. -/
inductive BlockCase (s t : State) : Prop where
  | reset (hr : s.rst = true) (ht : t = resetBlock s)
  | noWord (hr : s.rst = false) (hc : ConfigOk s) (hp : s.ph = .idle) (hw : s.stream = []) (ht : t = s)
  | word (hr : s.rst = false) (hc : ConfigOk s) (hp : s.ph = .idle) (w : Word) (ws : List Word) (u : State)
      (hw : s.stream = w :: ws) (hu : exec (decode s.esc w) { s with stream := ws } = .next u) (ht : t = { u with ph := .drain })
  | frame (hr : s.rst = false) (hc : ConfigOk s) (hp : s.ph = .drain) (hd : s.frameInterval ≤ s.clk)
      (ht : t = { framePass s with ph := .draw })
  | drained (hr : s.rst = false) (hc : ConfigOk s) (hp : s.ph = .drain) (hd : s.clk < s.frameInterval)
      (ht : t = { s with ph := .idle })
  | drawn (hr : s.rst = false) (hc : ConfigOk s) (hp : s.ph = .draw) (hf : s.frameReady = true) (ht : t = { s with ph := .drain })
  | waiting (hr : s.rst = false) (hc : ConfigOk s) (hp : s.ph = .draw) (hf : s.frameReady = false) (ht : t = s)

theorem blockAction_cases {s t : State} (h : blockAction s = .next t) : BlockCase s t := by
  unfold blockAction at h
  split at h
  · rename_i hr; cases h; exact .reset hr rfl
  rename_i hr
  split at h
  · cases h
  rename_i hF
  split at h
  · cases h
  rename_i hN
  have hr : s.rst = false := by simpa using hr
  have hc : ConfigOk s := ⟨by omega, by simpa using hN⟩
  cases hp : s.ph with
  | idle =>
    simp only [hp, idlePhase] at h
    cases hw : s.stream with
    | nil => simp only [hw] at h; cases h; exact .noWord hr hc hp hw rfl
    | cons w ws =>
      simp only [hw] at h
      obtain ⟨u, hu, ht⟩ := andThen_eq_next h
      cases ht
      rw [← hp] at hu
      exact .word hr hc hp w ws u hw hu rfl
  | drain =>
    simp only [hp, drainPhase, frameDue, decide_eq_true_eq] at h
    split at h
    · cases h; exact .frame hr hc hp ‹_› rfl
    · cases h; exact .drained hr hc hp (by omega) rfl
  | draw =>
    simp only [hp, drawPhase] at h
    split at h
    · cases h; exact .drawn hr hc hp ‹_› rfl
    · rename_i hf; cases h; exact .waiting hr hc hp (by simpa using hf) rfl

/-- Everything a step can do when it answers a next state. -/
theorem step_cases {s t : State} (h : step s = .next t) : ∃ e, environment s = .next e ∧ BlockCase e t := by
  obtain ⟨e, he, hb⟩ := andThen_eq_next h
  exact ⟨e, he, blockAction_cases hb⟩

/-- A run of `a + b` steps is a run of `a` and then one of `b`. -/
theorem runSteps_add (a b : Nat) (s : State) : runSteps (a + b) s = andThen (runSteps a s) (runSteps b) := by
  induction a generalizing s with
  | zero => simp [runSteps]
  | succ a ih =>
    rw [Nat.succ_add]
    simp only [runSteps]
    cases step s with
    | next u => exact ih u
    | fault r => rfl
    | refused r => rfl

end Sys2Proof.Machine
end

