-- ==== Sys2Proof/Tests/Slice0.lean ====
section
/-! SUPPORT. The model's own tests. Words and expected results are taken from 95_test_vectors.md (V.., P..) and from the
encoding tables of 30_encoding.md; the last part gives a witness for the hypotheses of each statement that has any. -/

namespace Sys2Proof.Tests

open Sys2Proof.Machine

/-- The next state of an outcome, to compare fields of it. -/
def nextOf (o : Host.Outcome State Fault Refusal) : Option State :=
  match o with
  | .next s => some s
  | .fault _ => none
  | .refused _ => none

/-- The refusal of an outcome. -/
def refusalOf (o : Host.Outcome State Fault Refusal) : Option Refusal :=
  match o with
  | .next _ => none
  | .fault _ => none
  | .refused r => some r

/-- A block with this clock and escape state, the rest as after reset. -/
def blockAt (clk : Nat) (e : EscState) : State := { State.reset with clk := clk, esc := e }

/-- A record at `(k, k)` with intensity `j`, as the vectors of 95_test_vectors.md section 2.8 write them. -/
def pt (k : BitVec 10) (j : BitVec 3) (age : Int) : Point := ⟨k, k, j, age⟩

/-! ## Well-formedness: one ill-formed command for each check -/

theorem test_blank_with_marker_dt_is_ill_formed : (Instr.blank 511 0).wellFormed = false := by decide
theorem test_plot_with_marker_dt_is_ill_formed : (Instr.plot 511 1 1 0).wellFormed = false := by decide
theorem test_plot_at_the_origin_is_ill_formed : (Instr.plot 5 0 0 7).wellFormed = false := by decide
theorem test_plot_on_an_edge_is_well_formed : (Instr.plot 510 0 1 0).wellFormed = true := by decide

/-! ## Decoding words written out bit by bit: dt, i, y, x from bit 31 down (rule R61) -/

theorem test_decode_plot : decode .normal (0b000000101#9 ++ 0b011#3 ++ 0b0011001000#10 ++ 0b0001100100#10) = .plot 5 100 200 3 := by
  decide
theorem test_decode_blank : decode .normal (0b111111110#9 ++ 0b111#3 ++ 0b0000000000#10 ++ 0b0000000000#10) = .blank 510 7 := by
  decide
theorem test_decode_esc : decode .normal (0b111111111#9 ++ 0b000#3 ++ 0b0000000000#10 ++ 0b0000000001#10) = .esc 1 := by decide
theorem test_decode_raw_marker_like : decode .escapePending (0b111111111#9 ++ 0#23) = .raw 0xFF800000 := by decide
/-- V16: `enc(1, 512, 512, 4) = 0x00C80200`. -/
theorem test_encode_plot : encode (.plot 1 512 512 4) = 0x00C80200 := by decide
theorem test_encode_esc : encode (.esc 0x7FFFFF) = 0xFFFFFFFF := by decide
theorem test_table_word : decodeTableWord 32 0xFF000000 = some (.blank 510 0) := by decide
/-- U4: a transfer that is wider or narrower than one word. -/
theorem test_other_widths_are_rejected :
    decodeBits .normal 64 0 = .error (.wrongWordWidth 64) ∧ decodeBits .normal 24 0 = .error (.wrongWordWidth 24) ∧
    decodeTableWord 40 0 = none ∧ State.reset.withFetchWord 40 0 = State.reset := by decide

/-! ## One step or one word of each command -/

/-- V22, the source's own example. -/
theorem test_step_plot :
    (nextOf (step (State.reset.withFetchWord 32 0x02B32064))).map (fun s => (s.clk, s.staged, s.ph, s.stream)) =
      some (5, [⟨100, 200, 3, 33328⟩], .drain, []) := by decide
/-- V26: the most negative initial age. -/
theorem test_word_plot_crosses_the_boundary :
    (nextOf (runWord 0xFF701C07 (blockAt 33332 .normal))).map (fun s => (s.clk, s.staged, s.frames)) =
      some (509, [], [[⟨7, 7, 7, -509⟩]]) := by decide
/-- V28: exactly one frame interval. -/
theorem test_word_blank_exact_frame :
    (nextOf (runWord 0xA6800000 (blockAt 33000 .normal))).map (fun s => (s.clk, s.staged, s.frames)) = some (0, [], [[]]) := by
  decide
/-- V29: one unit short, intensity ignored. -/
theorem test_word_blank_ignores_intensity :
    (nextOf (runWord 0xA6700000 (blockAt 33000 .normal))).map (fun s => (s.clk, s.staged, s.frames)) = some (33332, [], []) := by
  decide
/-- V38: fill bits ignored, 511 not added. -/
theorem test_step_esc :
    (nextOf (step ((blockAt 7 .normal).withFetchWord 32 0xFFFFFFFF))).map (fun s => (s.clk, s.esc, s.staged)) =
      some (7, .escapePending, []) := by decide
/-- V39: three frames. -/
theorem test_word_raw_three_frames :
    (nextOf (runWord 0x000186A0 (blockAt 5 .escapePending))).map (fun s => (s.clk, s.esc, s.frames)) =
      some (6, .normal, [[], [], []]) := by decide
/-- V44's word: it looks like a marker and is a payload. The body only. -/
theorem test_step_raw_looks_like_a_marker :
    (nextOf (step ((blockAt 0 .escapePending).withFetchWord 32 0xFF800000))).map (fun s => (s.clk, s.esc, s.ph)) =
      some (4286578688, .normal, .drain) := by decide

/-! ## The point engine -/

/-- V52: two removed, two aged, two admitted unaged. -/
theorem test_point_step_v52 :
    (pointStep { State.reset with
      live := [pt 1 1 199999, pt 2 2 166667, pt 3 3 166666, pt 4 4 (-7)]
      staged := [pt 5 5 33328, pt 6 6 0] }).live = [pt 3 3 199999, pt 4 4 33326, pt 5 5 33328, pt 6 6 0] := by decide
/-- V55: the capacity trim in ADMIT. -/
theorem test_point_step_v55 :
    (fun s : State => (s.live, s.staged, s.ovf)) (pointStep { State.reset with
      capacity := .bounded 2, live := [pt 1 1 10, pt 2 2 5], staged := [pt 3 3 1] }) =
      ([pt 2 2 33338, pt 3 3 1], [], true) := by decide
/-- Stage at capacity, 95_test_vectors.md section 2.8. -/
theorem test_stage_at_capacity :
    (fun s : State => (s.clk, s.staged, s.ovf)) <$> nextOf (exec (.plot 1 3 3 3) { State.reset with
      clk := 2, capacity := .bounded 2, staged := [pt 1 1 33332, pt 2 2 33331] }) =
      some (3, [pt 2 2 33331, pt 3 3 33330], true) := by decide
/-- P6's first word: two frames from one PLOT, the second ages the point. -/
theorem test_word_p6 :
    (nextOf (runWord 0x7D100401 (bootState 100 250 .unbounded))).map (fun s => (s.clk, s.live, trace s)) =
      some (50, [pt 1 1 (-50)], [[pt 1 1 (-150)], [pt 1 1 (-50)]]) := by decide
/-- The lifetimes of V33 to V36 (section 2.5). -/
theorem test_lifetimes :
    [2, 1, 33333, -509, 0, 33328].map (lifetime 33333 200000) = [6, 7, 6, 7, 7, 6] ∧ lifetime 33333 200000 250000 = 1 := by
  decide

/-! ## Ports -/

/-- Reset in mid-drain (rule R150): the block is in the reset state, the new F and C are sampled, the waiting word stays. -/
theorem test_reset_in_mid_drain :
    (nextOf (step { blockAt 70000 .normal with
      ph := .drain, stream := [9], frames := [[]], moves := [.assertReset 100 250] })).map
        (fun s => (s.ph, s.clk + s.frames.length, s.frameInterval, s.decayCeiling, s.stream)) =
      some (.idle, 0, 100, 250, [9]) := by decide
theorem test_frame_interval_zero_is_refused :
    refusalOf (step { State.reset with rst := true, frameInterval := 0, moves := [.releaseReset] }) =
      some .frameIntervalBelowOne := by decide
theorem test_config_change_in_flight_is_refused :
    refusalOf (step { State.reset with moves := [.presentConfig 100 200000] }) = some .configChangedInFlight := by decide
theorem test_draw_waits_for_the_compositor :
    (nextOf (step { State.reset with ph := .draw, frameReady := false })).map (·.ph) = some .draw := by decide

/-! ## Witnesses: states and operands that meet the hypotheses of each statement that has any -/

theorem witness_DecodeOfEncode :
    (Instr.raw 0).wellFormed = true ∧ (Instr.esc 0x7FFFFF).wellFormed = true ∧ (Instr.blank 510 7).wellFormed = true ∧
    (Instr.plot 510 1023 0 7).wellFormed = true := by decide

/-- One word at the edge of each clause of ClassOfEveryWord. -/
theorem witness_ClassOfEveryWord :
    (0xFF800000 : Word).toNat / 2 ^ 23 = 511 ∧
    ((0xFF700000 : Word).toNat / 2 ^ 23 ≠ 511 ∧ (0xFF700000 : Word).toNat % 2 ^ 20 = 0) ∧
    ((0xFF700400 : Word).toNat / 2 ^ 23 ≠ 511 ∧ (0xFF700400 : Word).toNat % 2 ^ 20 ≠ 0) := by decide

theorem witness_BlankAdvancesClockOnly :
    1 ≤ State.reset.frameInterval ∧ State.reset.esc = .normal ∧ dtField 0xFF700000 ≠ Config.dtEsc ∧
    xField 0xFF700000 = 0 ∧ yField 0xFF700000 = 0 := by decide

theorem witness_EscArmsTheEscapeOnly :
    (blockAt 33332 .normal).clk < (blockAt 33332 .normal).frameInterval ∧ (blockAt 33332 .normal).esc = .normal ∧
    dtField 0xFF800000 = Config.dtEsc ∧ decode .normal 0xFF800000 = .esc 0 ∧
    ((blockAt 7 .escapePending).rst = false ∧ ConfigOk (blockAt 7 .escapePending) ∧ (blockAt 7 .escapePending).ph = .idle ∧
      (blockAt 7 .escapePending).esc = .escapePending ∧ (blockAt 7 .escapePending).stream = [] ∧
      (blockAt 7 .escapePending).moves = []) :=
  ⟨by decide, rfl, by decide, by decide, rfl, ⟨by decide, rfl⟩, rfl, rfl, rfl, rfl⟩

theorem witness_RawTakesTheWholeWord :
    1 ≤ (blockAt 33332 .escapePending).frameInterval ∧ (blockAt 33332 .escapePending).esc = .escapePending := by decide

/-- A next state of each command; PLOT, BLANK and ESC meet the inner hypotheses too. -/
theorem witness_CommandsLeaveTheRest :
    (∃ t, exec (.raw 1) State.reset = .next t) ∧ (∃ t, exec (.esc 0) State.reset = .next t) ∧
    (∃ t, exec (.blank 510 7) State.reset = .next t) ∧ (∃ t, exec (.plot 0 1 0 0) State.reset = .next t) :=
  ⟨⟨_, rfl⟩, ⟨_, rfl⟩, ⟨_, rfl⟩, ⟨_, rfl⟩⟩

theorem witness_EscapePairAddsItsPayload :
    (blockAt 0 .normal).clk < (blockAt 0 .normal).frameInterval ∧ (blockAt 0 .normal).esc = .normal ∧
    dtField 0xFFFFFFFF = Config.dtEsc := by decide

theorem witness_PseudoCommandsDoWhatTheyStandFor :
    (blockAt 33332 .normal).clk < (blockAt 33332 .normal).frameInterval ∧ (blockAt 33332 .normal).esc = .normal ∧
    (510 : Word).toNat ≤ 510 := by decide

/-- An IDLE block to which the environment's move brings the word. -/
theorem witness_StepRunsTheDecodedCommand :
    ∃ s e : State, environment s = .next e ∧ e.rst = false ∧ ConfigOk e ∧ e.ph = .idle ∧ e.stream = [0x02B32064] :=
  ⟨{ State.reset with moves := [.deliver [0x02B32064]] }, { State.reset with stream := [0x02B32064] }, rfl, rfl,
    ⟨by decide, rfl⟩, rfl, rfl⟩

/-- The three clauses at their boundary: CLK equal to F, and one below. -/
theorem witness_DrainLoopsWhileAFrameIsDue :
    1 ≤ (blockAt 33333 .normal).frameInterval ∧ (blockAt 33333 .normal).frameInterval ≤ (blockAt 33333 .normal).clk ∧
    (blockAt 33332 .normal).clk < (blockAt 33332 .normal).frameInterval ∧
    (blockAt 33333 .normal).clk = (blockAt 33333 .normal).frameInterval := by decide

theorem witness_DrainCountsFrames :
    1 ≤ (blockAt 33333 .normal).frameInterval ∧ (blockAt 33333 .normal).frameInterval ≤ (blockAt 33333 .normal).clk := by decide

theorem witness_FeedCountsFrames : (blockAt 33332 .escapePending).clk < (blockAt 33332 .escapePending).frameInterval := by decide

theorem witness_NoInputNoChange :
    State.reset.rst = false ∧ ConfigOk State.reset ∧ State.reset.ph = .idle ∧ State.reset.stream = [] ∧ State.reset.moves = [] :=
  ⟨rfl, ⟨by decide, rfl⟩, rfl, rfl, rfl⟩

theorem witness_SmallStepsRunOneWord :
    ∃ s : State, s.rst = false ∧ ConfigOk s ∧ s.ph = .idle ∧ s.moves = [] ∧ s.frameReady = true ∧ s.stream = [0x000186A0, 0] :=
  ⟨{ blockAt 5 .escapePending with stream := [0x000186A0, 0] }, rfl, ⟨by decide, rfl⟩, rfl, rfl, rfl, rfl⟩

/-- V51's second chunking, with a compositor that is late. -/
def chunked : State :=
  { State.reset with
    stream := [0xFF800000]
    moves := [.driveFrameReady false, .deliver [0x000080E8], .quiet, .deliver [], .deliver [0xA6800000], .driveFrameReady true] }

theorem witness_ChunksAndDelaysDoNotMatter :
    chunked.rst = false ∧ ConfigOk chunked ∧ chunked.ph = .idle ∧ (∀ m ∈ chunked.moves, feedingMove m = true) ∧
    levelAfter chunked.frameReady chunked.moves = true :=
  ⟨rfl, ⟨by decide, rfl⟩, rfl, by decide, rfl⟩

theorem witness_AgeAddsOneInterval : ({ State.reset with live := [pt 1 1 (-509)] } : State).live[0]? = some (pt 1 1 (-509)) := by
  decide

/-- Both clauses: a staged point while no frame is drained, and across P6's first word, which drains two. -/
theorem witness_FirstFrameShowsEveryStagedPoint :
    (∃ s t : State, 1 ≤ s.frameInterval ∧ pt 1 1 100 ∈ s.staged ∧ feed [0x00000401] s = .next t ∧ NoOverflow t ∧
      frameCount t = frameCount s) ∧
    (∃ s t : State, 1 ≤ s.frameInterval ∧ pt 1 1 100 ∈ s.staged ∧ feed [0x7D100401] s = .next t ∧ NoOverflow t ∧
      frameCount s < frameCount t) :=
  ⟨⟨{ bootState 100 250 (.bounded 2) with staged := [pt 1 1 100] }, _, by decide, by decide, rfl, .inl (by decide), by decide⟩,
    ⟨{ bootState 100 250 (.bounded 2) with staged := [pt 1 1 100] }, _, by decide, by decide, rfl, .inl (by decide), by decide⟩⟩

theorem witness_StagedPointIsInTheNextFrame :
    capacityAdmitted (.bounded 1) = true ∧ capacityAdmitted .unbounded = true := by decide

theorem witness_CapacityIsInvisibleWithoutOverflow :
    ∃ t, feed [0x7D100401] (bootState 100 250 (.bounded 1)) = .next t ∧ NoOverflow t :=
  ⟨_, rfl, .inl (by decide)⟩

theorem witness_LifetimeOfEveryPoint : State.reset.capacity = .unbounded ∧ 1 ≤ State.reset.frameInterval := by decide

theorem witness_ArrivalTimesAreKept : ∃ t, exec (.plot 510 7 7 7) (blockAt 33332 .normal) = .next t := ⟨_, rfl⟩

theorem witness_CullRemovesAFrontPart :
    agesFall (({ State.reset with live := [pt 1 1 166667, pt 2 2 166666, pt 3 3 (-7)] } : State).live.map (fun p => p.age)) := by
  unfold agesFall
  decide

theorem witness_InvariantAtReset : ConfigOk (bootState 1 (-5) (.bounded 1)) := ⟨by decide, rfl⟩

/-- P1's state in the drain of its last word: three staged points and one frame due. -/
def midDrain : State :=
  { State.reset with
    clk := 33368
    ph := .drain
    staged := [⟨100, 200, 3, 33328⟩, ⟨101, 200, 3, 33318⟩, ⟨0, 1, 0, 33298⟩] }

theorem midDrain_inv : Inv midDrain where
  config := fun _ => ⟨by decide, rfl⟩
  in_reset := by decide
  clock_idle := by decide
  clock_bound := by decide
  staged_fits := rfl
  ovf_needs_capacity := fun _ => rfl
  staged_off_origin := by unfold offOrigin; decide
  staged_age := by unfold freshAge; decide
  ordered := by unfold agesFall; decide
  draw_shows := by decide
  live_is_last_frame := rfl
  frames_ok := by intro f hf; cases hf

theorem witness_EveryStepKeepsTheInvariant : Inv midDrain ∧ ∃ t, step midDrain = .next t := ⟨midDrain_inv, _, rfl⟩

theorem witness_ReachableStatesAreSafe : StartReachable State.reset :=
  ⟨33333, 200000, .unbounded, [], ⟨by decide, rfl⟩, rfl⟩

theorem witness_DerivedWidthsAreEnough :
    Inv midDrain ∧ midDrain.frameInterval ≤ 2 ^ 32 ∧ midDrain.frameInterval = 33333 ∧ midDrain.decayCeiling = 200000 :=
  ⟨midDrain_inv, by decide, rfl, rfl⟩

/-- A frame being shown, for the clause about DRAW; `midDrain` is in another phase. -/
def showing : State :=
  { State.reset with ph := .draw, live := [pt 7 7 (-509)], frames := [[pt 7 7 (-509)]], clk := 509 }

theorem witness_CompositorReadsTheLastFrame : Inv showing ∧ showing.ph = .draw ∧ Inv midDrain ∧ midDrain.ph ≠ .draw := by
  refine ⟨?_, rfl, midDrain_inv, by decide⟩
  constructor
  · exact fun _ => ⟨by decide, rfl⟩
  · decide
  · decide
  · decide
  · rfl
  · exact fun _ => rfl
  · intro p hp; cases hp
  · intro p hp; cases hp
  · unfold agesFall; decide
  · exact fun _ => ⟨rfl, by decide⟩
  · rfl
  · intro f hf
    have hf : f = [pt 7 7 (-509)] := by simpa [showing] using hf
    subst hf
    exact ⟨rfl, by unfold offOrigin; decide, by unfold liveAge; decide, by unfold agesFall; decide⟩

theorem witness_ResetOutranksEverything :
    ∃ e, environment { midDrain with moves := [.assertReset 0 7] } = .next e ∧ e.rst = true := ⟨_, rfl, rfl⟩

theorem witness_OnlyResetClearsOvf :
    ∃ s e t : State, environment s = .next e ∧ step s = .next t ∧ s.ovf = true ∧ t.ovf = false :=
  ⟨{ midDrain with ovf := true, moves := [.assertReset 1 1] }, _, _, rfl, rfl, rfl, rfl⟩

theorem witness_OnlyResetChangesConfiguration : ∃ t, step midDrain = .next t ∧ t.rst = false := ⟨_, rfl, rfl⟩

theorem witness_LiveChangesOnlyWithAFrame : ∃ t, step midDrain = .next t ∧ t.rst = false := ⟨_, rfl, rfl⟩

theorem witness_WordsAreTakenOnceInOrder : ∃ e t, environment chunked = .next e ∧ step chunked = .next t := ⟨_, _, rfl, rfl⟩

theorem witness_OnlyWordsMoveTime : ∃ e t, environment chunked = .next e ∧ step chunked = .next t ∧ t.rst = false :=
  ⟨_, _, rfl, rfl, rfl⟩

/-- Both disjuncts: an admitted configuration, and reset held under an unadmitted one. -/
theorem witness_AdmittedInputNeverStops :
    (∀ m ms, chunked.moves = m :: ms → breach m chunked = false) ∧ ConfigOk chunked ∧
    ∃ s : State, s.frameInterval = 0 ∧ s.rst = true ∧ s.moves = [.presentConfig (-3) 0] ∧
      (∀ m ms, s.moves = m :: ms → breach m s = false) ∧ ∀ ms, s.moves ≠ .releaseReset :: ms := by
  refine ⟨?_, ⟨by decide, rfl⟩, { State.reset with rst := true, frameInterval := 0, moves := [.presentConfig (-3) 0] }, rfl, rfl,
    rfl, ?_, ?_⟩
  · intro m ms h; cases h; rfl
  · intro m ms h; cases h; rfl
  · intro ms h; cases h

/-- One state for each clause of BreachesAreRefused. -/
theorem witness_BreachesAreRefused :
    (∃ s : State, s.rst = false ∧ s.frameInterval = 0 ∧ s.moves = []) ∧
    (∃ s : State, s.rst = false ∧ 1 ≤ s.frameInterval ∧ s.capacity = .bounded 0 ∧ s.moves = []) ∧
    (∃ s : State, s.rst = false ∧ s.moves = [.presentConfig 33333 0] ∧ (0 : Int) ≠ s.cfgDecayCeiling) ∧
    (∃ s : State, s.rst = false ∧ s.moves = [.withdraw 1] ∧ s.stream.take 1 ≠ []) :=
  ⟨⟨{ State.reset with frameInterval := 0 }, rfl, rfl, rfl⟩,
    ⟨{ State.reset with capacity := .bounded 0 }, rfl, by decide, rfl, rfl⟩,
    ⟨{ State.reset with moves := [.presentConfig 33333 0] }, rfl, rfl, by decide⟩,
    ⟨{ State.reset with stream := [0], moves := [.withdraw 1] }, rfl, rfl, by decide⟩⟩

theorem witness_StalledCompositorHoldsTheBlock :
    ∃ s : State, s.rst = false ∧ ConfigOk s ∧ s.ph = .draw ∧ s.frameReady = false ∧ s.moves = [] :=
  ⟨{ showing with frameReady := false }, rfl, ⟨by decide, rfl⟩, rfl, rfl, rfl⟩

theorem witness_PendingEscapeNeverTimesOut :
    ∃ s : State, s.rst = false ∧ ConfigOk s ∧ s.ph = .idle ∧ s.esc = .escapePending ∧ s.stream = [] ∧
      s.moves = List.replicate 2 .quiet ++ [.deliver [0xFF800000]] :=
  ⟨{ blockAt 7 .escapePending with moves := [.quiet, .quiet, .deliver [0xFF800000]] }, rfl, ⟨by decide, rfl⟩, rfl, rfl, rfl, rfl⟩

end Sys2Proof.Tests
end

section
/-! The fields of a word and the time amount it stands for in each escape state (rules R63 and R64). -/

namespace Sys2Proof

/-- The marker test of rule R64 on the value of `dt`. -/
theorem dtField_eq_dtEsc_iff (w : Word) : dtField w = Config.dtEsc ↔ (dtField w).toNat = 511 :=
  BitVec.toNat_inj.symm

namespace Machine

/-- With an escape pending the whole word is the amount. -/
@[simp] theorem timeAmount_decode_escapePending (w : Word) : timeAmount (decode .escapePending w) = w.toNat := rfl

/-- A marker adds nothing; a BLANK and a PLOT both add `dt`. -/
theorem timeAmount_decode_normal (w : Word) :
    timeAmount (decode .normal w) = if (dtField w).toNat = 511 then 0 else (dtField w).toNat := by
  simp only [decode, ← dtField_eq_dtEsc_iff]
  split
  case isTrue marker => rfl
  case isFalse notMarker => split <;> rfl

/-- The one nine-bit value above 510 is the marker's, which adds nothing. -/
theorem timeAmount_decode_normal_le (w : Word) : timeAmount (decode .normal w) ≤ 510 := by
  have hdt : (dtField w).toNat < 2 ^ 9 := (dtField w).isLt
  rw [timeAmount_decode_normal]
  split <;> omega

/-- Settles O4: the fields from their values as shifts and moduli, the ranges from their widths, the amounts from the classes of
rule R64. -/
theorem fieldsMaskTheWord : Obligations.FieldsMaskTheWord := by
  intro w
  have hx : (xField w).toNat ≤ 1023 := Nat.le_of_lt_succ (xField w).isLt
  have hy : (yField w).toNat ≤ 1023 := Nat.le_of_lt_succ (yField w).isLt
  have hi : (iField w).toNat ≤ 7 := Nat.le_of_lt_succ (iField w).isLt
  have hdt : (dtField w).toNat ≤ 511 := Nat.le_of_lt_succ (dtField w).isLt
  have hw : w.toNat ≤ 4294967295 := Nat.le_of_lt_succ w.isLt
  exact ⟨dtField_toNat w, iField_toNat w, yField_toNat w, xField_toNat w, hx, hy, hi, hdt,
    timeAmount_decode_normal w, timeAmount_decode_normal_le w, timeAmount_decode_escapePending w, hw⟩

end Machine

end Sys2Proof
end

section
/-! Feeding is running word by word (rules R86 and R87): the laws of two parts in sequence. -/

namespace Sys2Proof.Machine

/-- Going on with the state as it is changes no outcome. -/
@[simp] theorem andThen_next_right (o : Host.Outcome State Fault Refusal) : andThen o .next = o := by
  cases o <;> rfl

theorem andThen_assoc (o : Host.Outcome State Fault Refusal) (f g : State → Host.Outcome State Fault Refusal) :
    andThen (andThen o f) g = andThen o (fun s => andThen (f s) g) := by
  cases o <;> rfl

@[simp] theorem feed_nil (s : State) : feed [] s = .next s := rfl

theorem feed_cons (w : Word) (ws : List Word) (s : State) : feed (w :: ws) s = andThen (runWord w s) (feed ws) := rfl

@[simp] theorem feed_singleton (w : Word) (s : State) : feed [w] s = runWord w s :=
  andThen_next_right (runWord w s)

theorem feed_append (a b : List Word) (s : State) : feed (a ++ b) s = andThen (feed a s) (feed b) := by
  induction a generalizing s with
  | nil => rfl
  | cons w ws ih =>
    have rest : feed (ws ++ b) = fun u => andThen (feed ws u) (feed b) := funext ih
    rw [List.cons_append, feed_cons, feed_cons, andThen_assoc, rest]

/-- Settles O17: a one-word feed ends with the empty one, and a split moves through the first part word by word. -/
theorem feedIsWordByWord : Obligations.FeedIsWordByWord :=
  ⟨feed_singleton, feed_append⟩

end Sys2Proof.Machine
end

section
/-! The port at rest (rules R41 and R87): a state that steps to itself stays for any number of steps, and an IDLE block without a
word is such a state. -/

namespace Sys2Proof.Machine

@[simp] theorem environment_no_moves {s : State} (hm : s.moves = []) : environment s = .next s := by
  simp only [environment, hm]

/-- Out of reset and with an admitted configuration, an IDLE block acts by its phase. -/
theorem blockAction_idle {s : State} (hr : s.rst = false) (hc : ConfigOk s) (hp : s.ph = .idle) :
    blockAction s = idlePhase s := by
  obtain ⟨hF, hN⟩ := hc
  simp [blockAction, hr, hN, hp, Nat.ne_of_gt hF]

theorem idlePhase_no_word {s : State} (hw : s.stream = []) : idlePhase s = .next s := by
  simp only [idlePhase, hw]

theorem step_idle_no_word {s : State} (hr : s.rst = false) (hc : ConfigOk s) (hp : s.ph = .idle) (hw : s.stream = [])
    (hm : s.moves = []) : step s = .next s := by
  rw [step, environment_no_moves hm, andThen_next, blockAction_idle hr hc hp, idlePhase_no_word hw]

theorem runSteps_of_step_eq_self {s : State} (h : step s = .next s) (k : Nat) : runSteps k s = .next s := by
  induction k with
  | zero => rfl
  | succ k ih => rw [runSteps, h, andThen_next, ih]

theorem runSteps_idle_no_word (k : Nat) {s : State} (hr : s.rst = false) (hc : ConfigOk s) (hp : s.ph = .idle)
    (hw : s.stream = []) (hm : s.moves = []) : runSteps k s = .next s :=
  runSteps_of_step_eq_self (step_idle_no_word hr hc hp hw hm) k

/-- Settles O18: at the port, the step of an IDLE block without a word is the identity. -/
theorem noInputNoChange : Obligations.NoInputNoChange :=
  ⟨feed_nil, fun k _ hr hc hp hw hm => runSteps_idle_no_word k hr hc hp hw hm⟩

end Sys2Proof.Machine
end

section
/-! What the drain does to the clock and the frame count (rules R25, R100 and R101): every pass keeps the absolute time, the clock
ends below F, and these two fix both numbers. -/

namespace Sys2Proof.Machine

theorem drain_not_due {s : State} (h : s.clk < s.frameInterval) : drain s = s :=
  drainLoop_not_due h s.clk

/-- A property that every due pass keeps holds after the drain. -/
theorem drain_induction {P : State → Prop} (hstep : ∀ s, s.frameInterval ≤ s.clk → P s → P (framePass s)) {s : State}
    (h : P s) : P (drain s) :=
  drainLoop_induction hstep s.clk h

@[simp] theorem drain_esc (s : State) : (drain s).esc = s.esc :=
  drain_induction (P := fun u => u.esc = s.esc) (fun _ _ h => h) rfl

@[simp] theorem drain_frameInterval (s : State) : (drain s).frameInterval = s.frameInterval :=
  drain_induction (P := fun u => u.frameInterval = s.frameInterval) (fun _ _ h => h) rfl

/-- A pass gives one frame for F units of the clock. -/
theorem absoluteTime_framePass {s : State} (h : s.frameInterval ≤ s.clk) : absoluteTime (framePass s) = absoluteTime s := by
  simp only [absoluteTime, frameCount, framePass_frames, framePass_clk, framePass_frameInterval, List.length_cons,
    Nat.succ_mul]
  omega

@[simp] theorem absoluteTime_drain (s : State) : absoluteTime (drain s) = absoluteTime s :=
  drain_induction (P := fun u => absoluteTime u = absoluteTime s) (fun _ due h => (absoluteTime_framePass due).trans h) rfl

/-- With F at least 1, CLK passes are enough to bring the clock below F. -/
theorem drainLoop_clk_lt (fuel : Nat) {s : State} (hF : 1 ≤ s.frameInterval) (hfuel : s.clk ≤ fuel) :
    (drainLoop fuel s).clk < s.frameInterval := by
  induction fuel generalizing s with
  | zero => exact Nat.lt_of_le_of_lt hfuel hF
  | succ fuel ih =>
    by_cases due : s.frameInterval ≤ s.clk
    · have passed : (framePass s).clk ≤ fuel := by rw [framePass_clk]; omega
      rw [drainLoop_due due]
      exact ih (s := framePass s) hF passed
    · rw [drainLoop_not_due (Nat.lt_of_not_le due)]
      exact Nat.lt_of_not_le due

theorem drain_clk_lt {s : State} (hF : 1 ≤ s.frameInterval) : (drain s).clk < s.frameInterval :=
  drainLoop_clk_lt s.clk hF (Nat.le_refl s.clk)

/-- The time before and after the drain, with the frames written out. -/
theorem drain_time_balance (s : State) :
    (drain s).clk + frameCount (drain s) * s.frameInterval = s.clk + frameCount s * s.frameInterval := by
  have time : absoluteTime (drain s) = absoluteTime s := absoluteTime_drain s
  simp only [absoluteTime, drain_frameInterval] at time
  omega

theorem drain_clk {s : State} (hF : 1 ≤ s.frameInterval) : (drain s).clk = s.clk % s.frameInterval :=
  calc (drain s).clk
    _ = (drain s).clk % s.frameInterval := (Nat.mod_eq_of_lt (drain_clk_lt hF)).symm
    _ = ((drain s).clk + frameCount (drain s) * s.frameInterval) % s.frameInterval := (Nat.add_mul_mod_self_right ..).symm
    _ = (s.clk + frameCount s * s.frameInterval) % s.frameInterval := by rw [drain_time_balance]
    _ = s.clk % s.frameInterval := Nat.add_mul_mod_self_right ..

theorem frameCount_drain {s : State} (hF : 1 ≤ s.frameInterval) :
    frameCount (drain s) = frameCount s + s.clk / s.frameInterval :=
  calc frameCount (drain s)
    _ = ((drain s).clk + frameCount (drain s) * s.frameInterval) / s.frameInterval := by
        rw [Nat.add_mul_div_right _ _ hF, Nat.div_eq_of_lt (drain_clk_lt hF), Nat.zero_add]
    _ = (s.clk + frameCount s * s.frameInterval) / s.frameInterval := by rw [drain_time_balance]
    _ = frameCount s + s.clk / s.frameInterval := by rw [Nat.add_mul_div_right _ _ hF, Nat.add_comm]

end Sys2Proof.Machine
end

section
/-! RAW, BLANK and ESC as whole words (rules R64, R80 and R82 to R84): the class of the word, its body, and the drain behind it. -/

namespace Sys2Proof

theorem decode_escapePending (w : Word) : decode .escapePending w = .raw w := rfl

theorem decode_normal_marker {w : Word} (marker : dtField w = Config.dtEsc) : decode .normal w = .esc (fillField w) :=
  if_pos marker

theorem decode_normal_blank {w : Word} (notMarker : dtField w ≠ Config.dtEsc) (hx : xField w = 0) (hy : yField w = 0) :
    decode .normal w = .blank (dtField w) (iField w) :=
  (if_neg notMarker).trans (if_pos ⟨hx, hy⟩)

/-- A pending escape outranks the marker test, so an ESC is met in NORMAL only. -/
theorem normal_of_decode_eq_esc {m : EscState} {w : Word} {fill : BitVec 23} (h : decode m w = .esc fill) : m = .normal := by
  cases m with
  | normal => rfl
  | escapePending => cases h

namespace Machine

theorem exec_raw (n : Word) (s : State) : exec (.raw n) s = .next { s with esc := .normal, clk := s.clk + n.toNat } :=
  exec_eq (.raw n) s

theorem exec_esc (fill : BitVec 23) (s : State) : exec (.esc fill) s = .next { s with esc := .escapePending } :=
  exec_eq (.esc fill) s

theorem exec_blank (dt : BitVec 9) (i : BitVec 3) (s : State) :
    exec (.blank dt i) s = .next { s with clk := s.clk + dt.toNat } :=
  exec_eq (.blank dt i) s

/-- One word, once its class is known: the command's body and the drain behind it. -/
theorem runWord_of_decode {w : Word} {s t : State} {i : Instr} (hF : 1 ≤ s.frameInterval) (hi : decode s.esc w = i)
    (h : exec i s = .next t) : runWord w s = .next (drain t) :=
  runWord_of_exec hF (by rw [hi, h])

theorem runWord_escapePending {s : State} (w : Word) (hF : 1 ≤ s.frameInterval) (he : s.esc = .escapePending) :
    runWord w s = .next (drain { s with esc := .normal, clk := s.clk + w.toNat }) := by
  have isRaw : decode s.esc w = .raw w := by rw [he, decode_escapePending]
  exact runWord_of_decode hF isRaw (exec_raw w s)

theorem runWord_blank {w : Word} {s : State} (hF : 1 ≤ s.frameInterval) (he : s.esc = .normal)
    (notMarker : dtField w ≠ Config.dtEsc) (hx : xField w = 0) (hy : yField w = 0) :
    runWord w s = .next (drain { s with clk := s.clk + (dtField w).toNat }) := by
  have isBlank : decode s.esc w = .blank (dtField w) (iField w) := by rw [he, decode_normal_blank notMarker hx hy]
  exact runWord_of_decode hF isBlank (exec_blank (dtField w) (iField w) s)

/-- The drain behind a marker finds the clock below F. -/
theorem runWord_marker {w : Word} {s : State} (hclk : s.clk < s.frameInterval) (he : s.esc = .normal)
    (marker : dtField w = Config.dtEsc) : runWord w s = .next { s with esc := .escapePending } := by
  have isEsc : decode s.esc w = .esc (fillField w) := by rw [he, decode_normal_marker marker]
  rw [runWord_of_decode (Nat.one_le_of_lt hclk) isEsc (exec_esc (fillField w) s),
    drain_not_due (s := { s with esc := .escapePending }) hclk]

/-- Settles O7: the body, and the word in the class of rule R64 that has it. -/
theorem blankAdvancesClockOnly : Obligations.BlankAdvancesClockOnly :=
  ⟨exec_blank, fun _ _ hF he notMarker hx hy => runWord_blank hF he notMarker hx hy⟩

/-- Settles O8: the body, the word, the class test, and the port at rest. -/
theorem escArmsTheEscapeOnly : Obligations.EscArmsTheEscapeOnly :=
  ⟨exec_esc, fun _ _ hclk he marker => runWord_marker hclk he marker,
    fun _ _ _ h => normal_of_decode_eq_esc h, fun k _ hr hc hp _ hw hm => runSteps_idle_no_word k hr hc hp hw hm⟩

/-- Settles O9: the whole word is the drain of the advanced clock, so the laws of the drain give its end. -/
theorem rawTakesTheWholeWord : Obligations.RawTakesTheWholeWord :=
  ⟨exec_raw, fun w _ hF he => ⟨_, runWord_escapePending w hF he, rfl, drain_esc _, drain_clk hF, frameCount_drain hF,
    (absoluteTime_drain _).trans (Nat.add_assoc ..).symm⟩⟩

end Machine

end Sys2Proof
end

section
/-! The drain as a loop (rule R100): it unfolds by one pass while a frame is due, and changes only what a pass changes. -/

namespace Sys2Proof.Machine

/-- The pass costs one unit of fuel, and CLK units are more than the lowered clock needs. -/
theorem drain_due {s : State} (hF : 1 ≤ s.frameInterval) (due : s.frameInterval ≤ s.clk) : drain s = drain (framePass s) :=
  calc drain s
    _ = drainLoop (s.clk + 1) s := drainLoop_fuel hF (Nat.le_refl _) (Nat.le_succ _)
    _ = drainLoop s.clk (framePass s) := drainLoop_due due s.clk
    _ = drain (framePass s) := drainLoop_fuel (s := framePass s) hF (Nat.sub_le ..) (Nat.le_refl _)

/-- The point step reads neither the clock, which a pass lowers first, nor the trace. -/
theorem framePass_eq (s : State) :
    framePass s = { pointStep s with clk := s.clk - s.frameInterval, frames := (pointStep s).live :: s.frames } := rfl

theorem drain_at_frameInterval {s : State} (hF : 1 ≤ s.frameInterval) (h : s.clk = s.frameInterval) :
    (drain s).clk = 0 ∧ frameCount (drain s) = frameCount s + 1 :=
  ⟨by rw [drain_clk hF, h, Nat.mod_self], by rw [frameCount_drain hF, h, Nat.div_self hF]⟩

/-- The state `s` with the fields that a drain may write taken from `t`. -/
def withDrainedFields (s t : State) : State :=
  { s with clk := t.clk, staged := t.staged, live := t.live, ovf := t.ovf, frames := t.frames }

theorem withDrainedFields_self (s : State) : withDrainedFields s s = s := rfl

theorem withDrainedFields_withDrainedFields (s t u : State) :
    withDrainedFields (withDrainedFields s t) u = withDrainedFields s u := rfl

theorem framePass_frame (s : State) : framePass s = withDrainedFields s (framePass s) := rfl

theorem drain_frame (s : State) : drain s = withDrainedFields s (drain s) := by
  refine drain_induction (P := fun u => u = withDrainedFields s u) ?_ (withDrainedFields_self s).symm
  intro u _ kept
  calc framePass u
    _ = withDrainedFields u (framePass u) := framePass_frame u
    _ = withDrainedFields (withDrainedFields s u) (framePass u) := congrArg (withDrainedFields · (framePass u)) kept
    _ = withDrainedFields s (framePass u) := withDrainedFields_withDrainedFields s u _

/-- Settles O14: the loop unfolds by a pass or stops, the frame count law gives its end at CLK = F, and every pass writes only
the drained fields. -/
theorem drainLoopsWhileAFrameIsDue : Obligations.DrainLoopsWhileAFrameIsDue :=
  fun s hF => ⟨drain_due hF, drain_not_due, framePass_eq s, drain_at_frameInterval hF, drain_frame s⟩

end Sys2Proof.Machine
end

section
/-! AGE and CULL (rules R112 and R113): where each record of LIVE is afterwards, and how often. -/

namespace Sys2Proof.Machine

theorem survives_iff {c : Int} {p : Point} : survives c p = true ↔ p.age < c :=
  decide_eq_true_iff

/-- AGE moves no record to another place. -/
theorem getElem?_ageLive_live (s : State) (k : Nat) :
    (ageLive s).live[k]? = s.live[k]?.map (olderBy s.frameInterval) :=
  List.getElem?_map

theorem mem_cullLive_live {s : State} {p : Point} : p ∈ (cullLive s).live ↔ p ∈ s.live ∧ p.age < s.decayCeiling := by
  rw [cullLive_live, List.mem_filter, survives_iff]

theorem count_cullLive_of_expired {s : State} {p : Point} (h : s.decayCeiling ≤ p.age) : (cullLive s).live.count p = 0 :=
  List.count_eq_zero_of_not_mem fun kept => Int.not_lt.mpr h (mem_cullLive_live.mp kept).2

theorem count_cullLive_of_young {s : State} {p : Point} (h : p.age < s.decayCeiling) :
    (cullLive s).live.count p = s.live.count p :=
  List.count_filter (survives_iff.mpr h)

theorem count_cullLive (s : State) (p : Point) :
    (cullLive s).live.count p = if s.decayCeiling ≤ p.age then 0 else s.live.count p := by
  split
  case isTrue expired => exact count_cullLive_of_expired expired
  case isFalse young => exact count_cullLive_of_young (Int.not_le.mp young)

/-- Settles O22: a filter gives a sublist, and the age against the ceiling decides every count; CULL writes LIVE only and reads
no STAGED. -/
theorem cullRemovesExactlyTheExpired : Obligations.CullRemovesExactlyTheExpired :=
  fun _ => ⟨List.filter_sublist, count_cullLive _, rfl, fun _ => rfl, rfl⟩

/-- Settles O21: AGE maps LIVE record by record and writes nothing else. -/
theorem ageAddsOneInterval : Obligations.AgeAddsOneInterval := by
  intro s
  refine ⟨List.length_map _, ?_, rfl⟩
  intro k p hp
  rw [getElem?_ageLive_live, hp]
  rfl

end Sys2Proof.Machine
end

section
/-! The round trip between words and commands (rules R63 to R65, R68 and R69): a word is its four fields, and each class of rule
R64 is the word of its command. -/

namespace Sys2Proof

theorem wellFormed_blank_iff (dt : BitVec 9) (i : BitVec 3) : (Instr.blank dt i).wellFormed = true ↔ dt ≠ Config.dtEsc := by
  simp [Instr.wellFormed]

theorem wellFormed_plot_iff (dt : BitVec 9) (x y : BitVec 10) (i : BitVec 3) :
    (Instr.plot dt x y i).wellFormed = true ↔ dt ≠ Config.dtEsc ∧ ¬(x = 0 ∧ y = 0) := by
  simp [Instr.wellFormed, -not_and, not_and_or]

theorem decode_normal_plot {w : Word} (notMarker : dtField w ≠ Config.dtEsc) (offOrigin : ¬(xField w = 0 ∧ yField w = 0)) :
    decode .normal w = .plot (dtField w) (xField w) (yField w) (iField w) :=
  (if_neg notMarker).trans (if_neg offOrigin)

/-- Rule R68 on a word's own fields. -/
theorem enc_fields (w : Word) : enc (dtField w) (xField w) (yField w) (iField w) = w := by
  have hw : w.toNat < 2 ^ 32 := w.isLt
  apply BitVec.eq_of_toNat_eq
  rw [enc_toNat, dtField_toNat, iField_toNat, yField_toNat, xField_toNat]
  omega

theorem encode_esc_fillField {w : Word} (marker : dtField w = Config.dtEsc) : encode (.esc (fillField w)) = w := by
  have hw : w.toNat < 2 ^ 32 := w.isLt
  have hdt : w.toNat / 2 ^ 23 % 2 ^ 9 = 511 := by rw [← dtField_toNat, ← dtField_eq_dtEsc_iff]; exact marker
  apply BitVec.eq_of_toNat_eq
  rw [encode, BitVec.toNat_ofNat, fillField_toNat]
  omega

/-- Settles O2: the word of a command holds the command's operands, and these pass the tests of rule R64 for its own class. -/
theorem decodeOfEncode : Obligations.DecodeOfEncode := by
  intro i wf
  cases i with
  | raw n => rfl
  | esc fill =>
    obtain ⟨hdt, hfill⟩ := Laws.EncodeFields.esc fill
    exact (decode_normal_marker hdt).trans (by rw [hfill])
  | blank dt b =>
    obtain ⟨hdt, hb, hx, hy⟩ := Laws.EncodeFields.blank dt b
    have notMarker : dtField (encode (.blank dt b)) ≠ Config.dtEsc := by rw [hdt]; exact (wellFormed_blank_iff dt b).mp wf
    exact (decode_normal_blank notMarker hx hy).trans (by rw [hdt, hb])
  | plot dt x y b =>
    obtain ⟨hdt, hb, hx, hy⟩ := Laws.EncodeFields.plot dt x y b
    obtain ⟨dtOk, xyOk⟩ := (wellFormed_plot_iff dt x y b).mp wf
    have notMarker : dtField (encode (.plot dt x y b)) ≠ Config.dtEsc := by rw [hdt]; exact dtOk
    have offOrigin : ¬(xField (encode (.plot dt x y b)) = 0 ∧ yField (encode (.plot dt x y b)) = 0) := by
      rw [hx, hy]
      exact xyOk
    exact (decode_normal_plot notMarker offOrigin).trans (by rw [hdt, hx, hy, hb])

/-- Settles O3: in each class of rule R64 the command's operands are the word's fields, and the fields make up the word. -/
theorem encodeOfDecode : Obligations.EncodeOfDecode := by
  intro m w
  cases m with
  | escapePending => exact ⟨rfl, rfl, rfl⟩
  | normal =>
    by_cases marker : dtField w = Config.dtEsc
    · rw [decode_normal_marker marker]
      exact ⟨encode_esc_fillField marker, rfl, rfl⟩
    by_cases origin : xField w = 0 ∧ yField w = 0
    · obtain ⟨hx, hy⟩ := origin
      have word : enc (dtField w) 0 0 (iField w) = w := by simpa only [hx, hy] using enc_fields w
      rw [decode_normal_blank marker hx hy]
      exact ⟨word, (wellFormed_blank_iff _ _).mpr marker, rfl⟩
    · rw [decode_normal_plot marker origin]
      exact ⟨enc_fields w, (wellFormed_plot_iff _ _ _ _).mpr ⟨marker, origin⟩, rfl⟩

theorem decode_wellFormed (m : EscState) (w : Word) : (decode m w).wellFormed = true := by
  obtain ⟨_, wellFormed, _⟩ := encodeOfDecode m w
  exact wellFormed

theorem decode_mode (m : EscState) (w : Word) : (decode m w).mode = m := by
  obtain ⟨_, _, mode⟩ := encodeOfDecode m w
  exact mode

/-- The marker test of rule R64 on bits 31:23. -/
theorem dtField_eq_dtEsc_iff_div (w : Word) : dtField w = Config.dtEsc ↔ w.toNat / 2 ^ 23 = 511 := by
  have hw : w.toNat < 2 ^ 32 := w.isLt
  rw [dtField_eq_dtEsc_iff, dtField_toNat]
  omega

/-- The blank test of rule R64 on bits 19:0. -/
theorem fields_eq_origin_iff_mod (w : Word) : (xField w = 0 ∧ yField w = 0) ↔ w.toNat % 2 ^ 20 = 0 := by
  have zero : (0 : BitVec 10).toNat = 0 := rfl
  rw [← BitVec.toNat_inj, ← BitVec.toNat_inj, xField_toNat, yField_toNat, zero]
  omega

/-- Settles O5: the tests on the fields are tests on the bits they come from. -/
theorem classOfEveryWord : Obligations.ClassOfEveryWord := by
  intro w
  simp only [ne_eq, ← dtField_eq_dtEsc_iff_div, ← fields_eq_origin_iff_mod]
  exact ⟨decode_escapePending w, fun marker => ⟨_, decode_normal_marker marker⟩,
    fun notMarker origin => ⟨_, _, decode_normal_blank notMarker origin.1 origin.2⟩,
    fun notMarker offOrigin => ⟨_, _, _, _, decode_normal_plot notMarker offOrigin⟩⟩

/-- Settles O1: the words are closed, so the decoder is run on them. -/
theorem writtenOutWordsDecode : Obligations.WrittenOutWordsDecode := by
  unfold Obligations.WrittenOutWordsDecode
  decide

end Sys2Proof
end

section
/-! What a command body leaves as it was, as one equation (rule R88), and the body of PLOT (rule R81). -/

namespace Sys2Proof.Machine

theorem exec_plot (dt : BitVec 9) (x y : BitVec 10) (b : BitVec 3) (s : State) :
    exec (.plot dt x y b) s =
      .next (stage (newPoint x y b s.frameInterval (s.clk + dt.toNat)) { s with clk := s.clk + dt.toNat }) :=
  exec_eq (.plot dt x y b) s

/-- Only CLK, ESC, STAGED and OVF can change. -/
theorem exec_frame {i : Instr} {s t : State} (h : exec i s = .next t) :
    t = { s with clk := t.clk, esc := t.esc, staged := t.staged, ovf := t.ovf } := by
  cases i <;> cases h <;> rfl

theorem exec_clk {i : Instr} {s t : State} (h : exec i s = .next t) : t.clk = s.clk + timeAmount i := by
  cases i <;> cases h <;> rfl

theorem exec_live {i : Instr} {s t : State} (h : exec i s = .next t) : t.live = s.live := by rw [exec_frame h]
theorem exec_ph {i : Instr} {s t : State} (h : exec i s = .next t) : t.ph = s.ph := by rw [exec_frame h]
theorem exec_frameInterval {i : Instr} {s t : State} (h : exec i s = .next t) : t.frameInterval = s.frameInterval := by
  rw [exec_frame h]
theorem exec_decayCeiling {i : Instr} {s t : State} (h : exec i s = .next t) : t.decayCeiling = s.decayCeiling := by
  rw [exec_frame h]
theorem exec_capacity {i : Instr} {s t : State} (h : exec i s = .next t) : t.capacity = s.capacity := by rw [exec_frame h]
theorem exec_frames {i : Instr} {s t : State} (h : exec i s = .next t) : t.frames = s.frames := by rw [exec_frame h]
theorem exec_rst {i : Instr} {s t : State} (h : exec i s = .next t) : t.rst = s.rst := by rw [exec_frame h]
theorem exec_cfgFrameInterval {i : Instr} {s t : State} (h : exec i s = .next t) : t.cfgFrameInterval = s.cfgFrameInterval := by
  rw [exec_frame h]
theorem exec_cfgDecayCeiling {i : Instr} {s t : State} (h : exec i s = .next t) : t.cfgDecayCeiling = s.cfgDecayCeiling := by
  rw [exec_frame h]
theorem exec_frameReady {i : Instr} {s t : State} (h : exec i s = .next t) : t.frameReady = s.frameReady := by rw [exec_frame h]
theorem exec_stream {i : Instr} {s t : State} (h : exec i s = .next t) : t.stream = s.stream := by rw [exec_frame h]
theorem exec_moves {i : Instr} {s t : State} (h : exec i s = .next t) : t.moves = s.moves := by rw [exec_frame h]

/-- Settles O10: the frame equation, and the commands one by one for the four fields it says nothing of. -/
theorem commandsLeaveTheRest : Obligations.CommandsLeaveTheRest := by
  intro i s t h
  refine ⟨exec_live h, exec_ph h, exec_frameInterval h, exec_decayCeiling h, exec_capacity h, exec_frames h, exec_rst h,
    exec_cfgFrameInterval h, exec_cfgDecayCeiling h, exec_frameReady h, exec_stream h, exec_moves h, ?_, ?_, ?_⟩
  · intro notPlot
    cases i with
    | plot dt x y b => exact absurd rfl (notPlot dt x y b)
    | raw n => cases h; exact ⟨rfl, rfl⟩
    | esc fill => cases h; exact ⟨rfl, rfl⟩
    | blank dt b => cases h; exact ⟨rfl, rfl⟩
  · rintro (⟨dt, x, y, b, rfl⟩ | ⟨dt, b, rfl⟩) <;> cases h <;> rfl
  · rintro ⟨fill, rfl⟩
    cases h
    rfl

/-- The trim with its flag: what it drops decides OVF. -/
theorem takeLast_trimmed_ovf (n : Config.Capacity) (l : List Point) (ovf : Bool) :
    ∃ dropped, Trimmed n l dropped (takeLast n l) ∧ (ovfAfter n l.length ovf = true ↔ ovf = true ∨ dropped ≠ []) := by
  obtain ⟨dropped, trimmed, flag⟩ := takeLast_trimmed n l
  exact ⟨dropped, trimmed, by rw [ovfAfter_eq_true, flag]⟩

/-- Settles O25: STAGE is the trim with its flag. -/
theorem stageDropsTheEarliest : Obligations.StageDropsTheEarliest := by
  intro p s
  obtain ⟨dropped, trimmed, flag⟩ := takeLast_trimmed_ovf s.capacity (s.staged ++ [p]) s.ovf
  exact ⟨dropped, trimmed, flag, rfl⟩

/-- Settles O6: PLOT is STAGE on the advanced clock. -/
theorem plotAdvancesClockAndStages : Obligations.PlotAdvancesClockAndStages := by
  intro dt x y b s
  obtain ⟨dropped, trimmed, flag, frame⟩ :=
    stageDropsTheEarliest (newPoint x y b s.frameInterval (s.clk + dt.toNat)) { s with clk := s.clk + dt.toNat }
  exact ⟨_, dropped, exec_plot dt x y b s, rfl, trimmed, flag, frame⟩

end Sys2Proof.Machine
end

section
/-! The part of the invariant that speaks of points (rules R14 to R16, R102, R115, R118, R120 and R159): time, STAGE and a drain
pass keep it, and it reads neither PH nor a port. -/

namespace Sys2Proof.Machine

theorem agesFall_sublist {l l' : List Int} (h : agesFall l) (sub : l'.Sublist l) : agesFall l' :=
  List.Pairwise.sublist sub h

theorem agesFall_map_add {l : List Int} (h : agesFall l) (d : Int) : agesFall (l.map (· + d)) :=
  List.Pairwise.map _ (fun _ _ le => Int.add_le_add_right le d) h

theorem agesFall_concat_iff {l : List Int} {a : Int} : agesFall (l ++ [a]) ↔ agesFall l ∧ ∀ b ∈ l, a ≤ b := by
  simp [agesFall, List.pairwise_append]

theorem agesFall_lower_last {l : List Int} {a b : Int} (h : agesFall (l ++ [a])) (le : b ≤ a) : agesFall (l ++ [b]) := by
  obtain ⟨fall, bound⟩ := agesFall_concat_iff.mp h
  exact agesFall_concat_iff.mpr ⟨fall, fun c hc => Int.le_trans le (bound c hc)⟩

theorem agesFall_repeat_last {l : List Int} {a : Int} (h : agesFall (l ++ [a])) : agesFall (l ++ [a] ++ [a]) := by
  obtain ⟨_, bound⟩ := agesFall_concat_iff.mp h
  refine agesFall_concat_iff.mpr ⟨h, fun b hb => ?_⟩
  rcases List.mem_append.mp hb with inList | isLast
  · exact bound b inList
  · exact Int.le_of_eq (List.mem_singleton.mp isLast).symm

/-- What a frame event has to meet depends on the configuration only. -/
theorem FrameOk.of_config {s t : State} {f : Frame} (h : FrameOk s f) (hF : t.frameInterval = s.frameInterval)
    (hC : t.decayCeiling = s.decayCeiling) (hN : t.capacity = s.capacity) : FrameOk t f where
  fits := hN ▸ h.fits
  off_origin := h.off_origin
  age_range p hp := by
    unfold liveAge
    rw [hF, hC]
    exact h.age_range p hp
  ordered := h.ordered

theorem frameOk_nil (s : State) : FrameOk s [] where
  fits := by cases hN : s.capacity <;> simp
  off_origin := by simp
  age_range := by simp
  ordered := List.Pairwise.nil

/-- The clauses of `Inv` on STAGED, LIVE, OVF and the trace. -/
structure PointsOk (s : State) : Prop where
  staged_fits : overCapacity s.capacity s.staged.length = false
  ovf_needs_capacity : s.capacity = .unbounded → s.ovf = false
  staged_off_origin : ∀ p ∈ s.staged, offOrigin p
  staged_age : ∀ p ∈ s.staged, freshAge s p
  ordered : agesFall (upcomingAges s)
  live_is_last_frame : s.live = s.frames.headD []
  frames_ok : ∀ f ∈ s.frames, FrameOk s f

theorem Inv.points {s : State} (h : Inv s) : PointsOk s :=
  ⟨h.staged_fits, h.ovf_needs_capacity, h.staged_off_origin, h.staged_age, h.ordered, h.live_is_last_frame, h.frames_ok⟩

/-- Out of reset the rest of the invariant is the configuration, the clock and the staging invariant. -/
theorem PointsOk.inv {s : State} (h : PointsOk s) (hr : s.rst = false) (hc : ConfigOk s)
    (idle : s.ph = .idle → s.clk < s.frameInterval) (bound : s.clk ≤ s.frameInterval + 4294967294)
    (draw : s.ph = .draw → s.staged = [] ∧ s.frames ≠ []) : Inv s where
  config _ := hc
  in_reset high := by simp [hr] at high
  clock_idle _ := idle
  clock_bound := bound
  staged_fits := h.staged_fits
  ovf_needs_capacity := h.ovf_needs_capacity
  staged_off_origin := h.staged_off_origin
  staged_age := h.staged_age
  ordered := h.ordered
  draw_shows := draw
  live_is_last_frame := h.live_is_last_frame
  frames_ok := h.frames_ok

theorem PointsOk.with_ports {s : State} (h : PointsOk s) (p : Phase) (r : Bool) (f c : Int) (v : Bool) (ws : List Word)
    (ms : List Move) :
    PointsOk { s with
      ph := p, rst := r, cfgFrameInterval := f, cfgDecayCeiling := c, frameReady := v, stream := ws, moves := ms } where
  staged_fits := h.staged_fits
  ovf_needs_capacity := h.ovf_needs_capacity
  staged_off_origin := h.staged_off_origin
  staged_age := h.staged_age
  ordered := h.ordered
  live_is_last_frame := h.live_is_last_frame
  frames_ok f hf := (h.frames_ok f hf).of_config rfl rfl rfl

/-- LIVE is the last frame or empty, so it meets what every frame meets. -/
theorem PointsOk.live_ok {s : State} (h : PointsOk s) : FrameOk s s.live := by
  rw [h.live_is_last_frame]
  cases hf : s.frames with
  | nil => exact frameOk_nil s
  | cons f fs => exact h.frames_ok f (by simp [hf])

/-- Time alone only lowers the age a point staged now would get. -/
theorem PointsOk.advance {s : State} (h : PointsOk s) (t : Nat) (e : EscState) :
    PointsOk { s with clk := s.clk + t, esc := e } where
  staged_fits := h.staged_fits
  ovf_needs_capacity := h.ovf_needs_capacity
  staged_off_origin := h.staged_off_origin
  staged_age := h.staged_age
  ordered := agesFall_lower_last h.ordered (by simp only [initialAge]; omega)
  live_is_last_frame := h.live_is_last_frame
  frames_ok f hf := (h.frames_ok f hf).of_config rfl rfl rfl

/-- The ages of STAGED behind those of the aged LIVE, with a point of the last age appended and the trim made. -/
theorem upcomingAges_stage_sublist {s : State} {p : Point} (age : p.age = initialAge s.frameInterval s.clk) :
    (upcomingAges (stage p s)).Sublist (upcomingAges s ++ [initialAge s.frameInterval s.clk]) := by
  have trimmed := ((takeLast_suffix s.capacity (s.staged ++ [p])).sublist.map (fun q => q.age))
  rw [List.map_append, List.map_singleton, age] at trimmed
  simpa [upcomingAges] using trimmed.append_right [initialAge s.frameInterval s.clk]

theorem PointsOk.stage {s : State} {p : Point} (h : PointsOk s) (off : offOrigin p)
    (age : p.age = initialAge s.frameInterval s.clk) (clk : s.clk ≤ s.frameInterval + 509) : PointsOk (stage p s) where
  staged_fits := takeLast_fits _ _
  ovf_needs_capacity unbounded := by
    have unbounded : s.capacity = .unbounded := unbounded
    simp [ovfAfter, unbounded, h.ovf_needs_capacity unbounded]
  staged_off_origin q hq := by
    rcases List.mem_append.mp (mem_of_mem_takeLast hq) with old | new
    · exact h.staged_off_origin q old
    · rw [List.mem_singleton.mp new]
      exact off
  staged_age q hq := by
    rcases List.mem_append.mp (mem_of_mem_takeLast hq) with old | new
    · exact h.staged_age q old
    · rw [List.mem_singleton.mp new, freshAge, age, initialAge, stage_frameInterval]
      omega
  ordered := agesFall_sublist (agesFall_repeat_last h.ordered) (upcomingAges_stage_sublist age)
  live_is_last_frame := h.live_is_last_frame
  frames_ok f hf := (h.frames_ok f hf).of_config rfl rfl rfl

/-- The ages of LIVE after a pass are among the upcoming ages before it, in order. -/
theorem ages_framePass_sublist (s : State) :
    ((framePass s).live.map (fun p => p.age)).Sublist
      (s.live.map (fun p => p.age + (s.frameInterval : Int)) ++ s.staged.map (fun p => p.age)) := by
  have kept : (framePass s).live.Sublist (s.live.map (olderBy s.frameInterval) ++ s.staged) :=
    (takeLast_suffix _ _).sublist.trans (List.filter_sublist.append_right s.staged)
  have ages := kept.map (fun p => p.age)
  rwa [List.map_append, List.map_map] at ages

/-- Behind a pass the next age is F more, for the points of LIVE and for a point staged now alike. -/
theorem upcomingAges_framePass_sublist {s : State} (due : s.frameInterval ≤ s.clk) :
    (upcomingAges (framePass s)).Sublist ((upcomingAges s).map (· + (s.frameInterval : Int))) := by
  have live := (ages_framePass_sublist s).map (· + (s.frameInterval : Int))
  have last : initialAge s.frameInterval (s.clk - s.frameInterval) = initialAge s.frameInterval s.clk + s.frameInterval := by
    unfold initialAge
    omega
  have whole := live.append_right [initialAge s.frameInterval s.clk + (s.frameInterval : Int)]
  simpa [upcomingAges, last, Function.comp_def] using whole

/-- A record of LIVE after a pass was live and is young enough when aged, or was staged. -/
theorem mem_framePass_live {s : State} {p : Point} (hp : p ∈ (framePass s).live) :
    (∃ q ∈ s.live, olderBy s.frameInterval q = p ∧ p.age < s.decayCeiling) ∨ p ∈ s.staged := by
  rcases List.mem_append.mp (mem_of_mem_takeLast hp) with survivor | admitted
  · obtain ⟨aged, young⟩ := List.mem_filter.mp survivor
    obtain ⟨q, hq, rfl⟩ := List.mem_map.mp aged
    exact .inl ⟨q, hq, rfl, survives_iff.mp young⟩
  · exact .inr admitted

theorem PointsOk.frameOk_framePass {s : State} (h : PointsOk s) : FrameOk s (framePass s).live where
  fits := takeLast_fits _ _
  off_origin p hp := by
    rcases mem_framePass_live hp with ⟨q, hq, rfl, _⟩ | admitted
    · exact h.live_ok.off_origin q hq
    · exact h.staged_off_origin p admitted
  age_range p hp := by
    rcases mem_framePass_live hp with ⟨q, hq, rfl, young⟩ | admitted
    · have old : -509 ≤ q.age := (h.live_ok.age_range q hq).1
      simp only [liveAge, olderBy] at young ⊢
      omega
    · have fresh := h.staged_age p admitted
      simp only [freshAge, liveAge] at fresh ⊢
      omega
  ordered := agesFall_sublist h.ordered ((ages_framePass_sublist s).trans (List.sublist_append_left _ _))

theorem PointsOk.framePass {s : State} (h : PointsOk s) (due : s.frameInterval ≤ s.clk) : PointsOk (framePass s) where
  staged_fits := by cases hN : s.capacity <;> simp [hN]
  ovf_needs_capacity unbounded := by
    have unbounded : s.capacity = .unbounded := unbounded
    simp [ovfAfter, unbounded, h.ovf_needs_capacity unbounded]
  staged_off_origin := by simp
  staged_age := by simp
  ordered := agesFall_sublist (agesFall_map_add h.ordered s.frameInterval) (upcomingAges_framePass_sublist due)
  live_is_last_frame := rfl
  frames_ok f hf := by
    rcases List.mem_cons.mp hf with rfl | old
    · exact h.frameOk_framePass.of_config rfl rfl rfl
    · exact (h.frames_ok f old).of_config rfl rfl rfl

theorem toNat_le_of_ne_dtEsc {dt : BitVec 9} (h : dt ≠ Config.dtEsc) : dt.toNat ≤ 510 := by
  have lt : dt.toNat < 512 := dt.isLt
  have ne : dt.toNat ≠ 511 := fun eq => h (BitVec.eq_of_toNat_eq eq)
  omega

/-- A word's command keeps the points' part: its `dt` is at most 510, and it plots no point at the origin. -/
theorem PointsOk.exec {i : Instr} {s t : State} (h : PointsOk s) (wf : i.wellFormed = true)
    (clk : s.clk < s.frameInterval) (ht : exec i s = .next t) : PointsOk t := by
  cases i with
  | raw n => cases ht; exact h.advance n.toNat .normal
  | esc fill => cases ht; exact h.advance 0 .escapePending
  | blank dt b => cases ht; exact h.advance dt.toNat s.esc
  | plot dt x y b =>
    obtain ⟨notMarker, off⟩ := (wellFormed_plot_iff dt x y b).mp wf
    have dtLe : dt.toNat ≤ 510 := toNat_le_of_ne_dtEsc notMarker
    cases ht
    refine (h.advance dt.toNat s.esc).stage off rfl ?_
    show s.clk + dt.toNat ≤ s.frameInterval + 509
    omega

end Sys2Proof.Machine
end

section
/-! The invariant (rules R22, R23 and R85 with the points' part): reset establishes it, and every step keeps it. -/

namespace Sys2Proof.Machine

/-- The values reset leaves meet the invariant, with reset held or with an admitted configuration. -/
theorem inv_of_reset_values {s : State} (hc : s.rst = false → ConfigOk s) (clk : s.clk = 0) (esc : s.esc = .normal)
    (staged : s.staged = []) (live : s.live = []) (ovf : s.ovf = false) (ph : s.ph = .idle) (frames : s.frames = []) :
    Inv s where
  config := hc
  in_reset _ := ⟨clk, esc, staged, live, ovf, ph, frames⟩
  clock_idle low _ := clk ▸ (hc low).1
  clock_bound := by omega
  staged_fits := by cases hN : s.capacity <;> simp [staged]
  ovf_needs_capacity _ := ovf
  staged_off_origin := by simp [staged]
  staged_age := by simp [staged]
  ordered := by simp [upcomingAges, staged, live, agesFall]
  draw_shows draw := by simp [ph] at draw
  live_is_last_frame := by simp [live, frames]
  frames_ok := by simp [frames]

theorem inv_resetBlock {s : State} (hr : s.rst = true) : Inv (resetBlock s) :=
  inv_of_reset_values (s := resetBlock s) (fun low => by simp [hr] at low) rfl rfl rfl rfl rfl rfl rfl

theorem inv_bootState {f : Nat} {c : Int} {n : Config.Capacity} (hc : ConfigOk (bootState f c n)) : Inv (bootState f c n) :=
  inv_of_reset_values (fun _ => hc) rfl rfl rfl rfl rfl rfl rfl

/-- Settles O31: `State.reset` is the reset state of the default configuration. -/
theorem invariantAtReset : Obligations.InvariantAtReset :=
  ⟨inv_bootState (f := 33333) (c := 200000) (n := .unbounded) ⟨by decide, rfl⟩, fun _ _ _ => inv_bootState⟩

/-- The environment keeps the invariant out of reset; where its move released reset, the block is still in the reset state. -/
theorem inv_environment {s e : State} (h : Inv s) (he : environment s = .next e) (hr : e.rst = false) (hc : ConfigOk e) :
    Inv e := by
  obtain ⟨r, f, c, v, ws, ms, rfl⟩ := environment_ports he
  refine (h.points.with_ports s.ph r f c v ws ms).inv hr hc ?_ h.clock_bound h.draw_shows
  intro idle
  cases high : s.rst with
  | true =>
    have clk : s.clk = 0 := (h.in_reset high).1
    show s.clk < s.frameInterval
    rw [clk]
    exact hc.1
  | false => exact h.clock_idle high idle

theorem timeAmount_decode_le (m : EscState) (w : Word) : timeAmount (decode m w) ≤ 4294967295 := by
  cases m with
  | normal => exact Nat.le_trans (timeAmount_decode_normal_le w) (by decide)
  | escapePending => exact Nat.le_of_lt_succ w.isLt

theorem inv_with_stream {s : State} (h : Inv s) (hr : s.rst = false) (ws : List Word) : Inv { s with stream := ws } :=
  (h.points.with_ports s.ph s.rst s.cfgFrameInterval s.cfgDecayCeiling s.frameReady ws s.moves).inv hr (h.config hr)
    (h.clock_idle hr) h.clock_bound h.draw_shows

/-- A word's command: the clock was below F (rule R22), so it stays within the bound of rule R85. -/
theorem inv_exec {s u : State} {w : Word} (h : Inv s) (hr : s.rst = false) (hp : s.ph = .idle)
    (hu : exec (decode s.esc w) s = .next u) : Inv { u with ph := .drain } := by
  have low : s.clk < s.frameInterval := h.clock_idle hr hp
  have amount : timeAmount (decode s.esc w) ≤ 4294967295 := timeAmount_decode_le s.esc w
  have wf : (decode s.esc w).wellFormed = true := decode_wellFormed s.esc w
  have points : PointsOk u := h.points.exec wf low hu
  have clk : u.clk = s.clk + timeAmount (decode s.esc w) := exec_clk hu
  have hF : u.frameInterval = s.frameInterval := exec_frameInterval hu
  refine (points.with_ports .drain u.rst u.cfgFrameInterval u.cfgDecayCeiling u.frameReady u.stream u.moves).inv
    ((exec_rst hu).trans hr) ?_ ?_ ?_ ?_
  · obtain ⟨one, admitted⟩ := h.config hr
    exact ⟨hF ▸ one, (exec_capacity hu) ▸ admitted⟩
  · rintro ⟨⟩
  · show u.clk ≤ u.frameInterval + 4294967294
    omega
  · rintro ⟨⟩

/-- A pass of the drain: it lowers the clock, empties STAGED and emits a frame (rule R23). -/
theorem inv_frame {s : State} (h : Inv s) (hr : s.rst = false) (due : s.frameInterval ≤ s.clk) :
    Inv { framePass s with ph := .draw } := by
  refine ((h.points.framePass due).with_ports .draw s.rst s.cfgFrameInterval s.cfgDecayCeiling s.frameReady s.stream
    s.moves).inv hr (h.config hr) ?_ ?_ ?_
  · rintro ⟨⟩
  · exact Nat.le_trans (Nat.sub_le _ _) h.clock_bound
  · exact fun _ => ⟨rfl, List.cons_ne_nil _ _⟩

/-- A change of the phase alone, to one that shows no frame. -/
theorem inv_with_phase {s : State} (h : Inv s) (hr : s.rst = false) {p : Phase}
    (idle : p = .idle → s.clk < s.frameInterval) (notDraw : p ≠ .draw) : Inv { s with ph := p } :=
  (h.points.with_ports p s.rst s.cfgFrameInterval s.cfgDecayCeiling s.frameReady s.stream s.moves).inv hr (h.config hr) idle
    h.clock_bound fun draw => absurd draw notDraw

/-- Settles O32: reset establishes the invariant afresh, and out of reset each action of the phases keeps it. -/
theorem everyStepKeepsTheInvariant : Obligations.EveryStepKeepsTheInvariant := by
  intro s t h ht
  obtain ⟨e, he, action⟩ := step_cases ht
  cases action with
  | reset hr ht => exact ht ▸ inv_resetBlock hr
  | noWord hr hc _ _ ht => exact ht ▸ inv_environment h he hr hc
  | word hr hc hp w ws u _ hu ht => 
    exact ht ▸ inv_exec (s := { e with stream := ws }) (inv_with_stream (inv_environment h he hr hc) hr ws) hr hp hu
  | frame hr hc _ due ht => exact ht ▸ inv_frame (inv_environment h he hr hc) hr due
  | drained hr hc _ low ht => exact ht ▸ inv_with_phase (inv_environment h he hr hc) hr (fun _ => low) (by decide)
  | drawn hr hc _ _ ht => exact ht ▸ inv_with_phase (inv_environment h he hr hc) hr (by rintro ⟨⟩) (by decide)
  | waiting hr hc _ _ ht => exact ht ▸ inv_environment h he hr hc

end Sys2Proof.Machine
end

section
/-! What the invariant gives (rules R23, R27, R85, R102 and R120): the widths a build needs, and what the compositor reads. -/

namespace Sys2Proof.Machine

theorem clk_width {s : State} (h : Inv s) (hF : s.frameInterval ≤ 2 ^ 32) : s.clk < 2 ^ Config.clkWidth := by
  have bound : s.clk ≤ s.frameInterval + 4294967294 := h.clock_bound
  show s.clk < 2 ^ 33
  omega

/-- At the default F and C an age in LIVE stays below C before AGE and below C + F after it. -/
theorem live_age_default {s : State} (h : Inv s) (hF : s.frameInterval = 33333) (hC : s.decayCeiling = 200000) {p : Point}
    (hp : p ∈ s.live) : -509 ≤ p.age ∧ p.age ≤ 199999 := by
  have range : liveAge s p := h.points.live_ok.age_range p hp
  simp only [liveAge, hF, hC] at range
  omega

theorem staged_age_default {s : State} (h : Inv s) (hF : s.frameInterval = 33333) {p : Point} (hp : p ∈ s.staged) :
    -509 ≤ p.age ∧ p.age ≤ 33333 := by
  have range : freshAge s p := h.staged_age p hp
  simp only [freshAge, hF] at range
  omega

/-- Settles O34: the ranges of rules R85 and R120 lie within the widths. -/
theorem derivedWidthsAreEnough : Obligations.DerivedWidthsAreEnough := by
  intro s h
  have width : (2 : Int) ^ (Config.ageWidth - 1) = 262144 := by decide
  rw [width]
  refine ⟨clk_width h, fun hF hC => ⟨?_, ?_, ?_⟩⟩
  · intro p hp
    have range := staged_age_default h hF hp
    omega
  · intro p hp
    have range := live_age_default h hF hC hp
    omega
  · intro p hp
    obtain ⟨q, hq, rfl⟩ := List.mem_map.mp hp
    have range := live_age_default h hF hC hq
    simp only [olderBy, hF]
    omega

theorem frameValid_iff (s : State) : frameValid s = true ↔ s.ph = .draw := by
  simp [frameValid]

theorem readCount_draw {s : State} (hp : s.ph = .draw) : readCount s = some s.live.length :=
  if_pos ((frameValid_iff s).mpr hp)

theorem readPoint_draw {s : State} (hp : s.ph = .draw) (k : Nat) : readPoint s k = s.live[k]? :=
  if_pos ((frameValid_iff s).mpr hp)

theorem readCount_not_draw {s : State} (hp : s.ph ≠ .draw) : readCount s = none :=
  if_neg (mt (frameValid_iff s).mp hp)

theorem readPoint_not_draw {s : State} (hp : s.ph ≠ .draw) (k : Nat) : readPoint s k = none :=
  if_neg (mt (frameValid_iff s).mp hp)

/-- Settles O35: in DRAW a frame has been emitted, and LIVE is the last one. -/
theorem compositorReadsTheLastFrame : Obligations.CompositorReadsTheLastFrame := by
  intro s h
  refine ⟨?_, fun hp => ⟨readCount_not_draw hp, readPoint_not_draw hp⟩, by simp [cmdReady, busy, bne], ?_⟩
  · intro hp
    obtain ⟨staged, emitted⟩ := h.draw_shows hp
    obtain ⟨f, fs, frames⟩ := List.exists_cons_of_ne_nil emitted
    have live : s.live = f := by rw [h.live_is_last_frame, frames, List.headD_cons]
    exact ⟨f, fs, frames, staged, live ▸ readCount_draw hp, live ▸ readPoint_draw hp⟩
  · intro valid
    have hp : s.ph = .draw := (frameValid_iff s).mp valid
    simp [busy, hp]

end Sys2Proof.Machine
end

section
/-! The point step and the lifetime of points (rules R110 to R118), on STAGED and LIVE as sequences. -/

namespace Sys2Proof.Machine

/-- Settles O23: ADMIT is the trim with its flag on what AGE and CULL leave, and no part reads CLK or ESC. -/
theorem pointStepAgesCullsAdmits : Obligations.PointStepAgesCullsAdmits := by
  intro s
  obtain ⟨dropped, trimmed, flag⟩ :=
    takeLast_trimmed_ovf s.capacity ((cullLive (ageLive s)).live ++ s.staged) s.ovf
  exact ⟨dropped, trimmed, rfl, flag, rfl, fun _ _ => rfl⟩

/-- Settles O24: the new record is last in STAGED, so it is last in LIVE after the next step, whatever the trim takes. -/
theorem stagedPointIsInTheNextFrame : Obligations.StagedPointIsInTheNextFrame := by
  intro dt x y b s admitted
  obtain ⟨before, last⟩ := takeLast_concat admitted ((cullLive (ageLive s)).live ++ s.staged)
    (newPoint x y b s.frameInterval (s.clk + dt.toNat))
  refine ⟨_, before, exec_plot dt x y b s, congrArg some ?_⟩
  rw [List.append_assoc, ← takeLast_append_takeLast] at last
  exact last

/-- Trimming the front part beforehand does not show either. -/
theorem takeLast_takeLast_append {α : Type} (n : Config.Capacity) (l c : List α) :
    takeLast n (takeLast n l ++ c) = takeLast n (l ++ c) := by
  cases n with
  | unbounded => rfl
  | bounded k =>
    simp only [takeLast, List.length_append, List.length_drop]
    rw [← List.drop_append_of_le_length (by omega), List.drop_drop]
    congr 1
    omega

theorem takeLast_append_takeLast_append {α : Type} (n : Config.Capacity) (a b c : List α) :
    takeLast n (a ++ (takeLast n b ++ c)) = takeLast n (a ++ (b ++ c)) := by
  rw [← takeLast_append_takeLast, takeLast_takeLast_append, takeLast_append_takeLast]

/-- Nor does it show in OVF: what the trim beforehand drops, the whole does not fit either. -/
theorem ovfAfter_takeLast_append {α : Type} (n : Config.Capacity) (a b c : List α) (ovf : Bool) :
    ovfAfter n (a ++ (takeLast n b ++ c)).length (ovfAfter n b.length ovf) = ovfAfter n (a ++ (b ++ c)).length ovf := by
  cases n with
  | unbounded => simp [ovfAfter]
  | bounded k =>
    cases ovf with
    | true => rfl
    | false =>
      rw [Bool.eq_iff_iff]
      simp only [ovfAfter_eq_true, overCapacity_bounded, takeLast, List.length_append, List.length_drop, decide_eq_true_eq,
        Bool.false_eq_true, false_or]
      omega

theorem pointStep_stage_append (p : Point) (ps : List Point) (s : State) :
    (pointStep { stage p s with staged := (stage p s).staged ++ ps }).live =
        (pointStep { s with staged := s.staged ++ p :: ps }).live ∧
      (pointStep { stage p s with staged := (stage p s).staged ++ ps }).ovf =
        (pointStep { s with staged := s.staged ++ p :: ps }).ovf := by
  rw [List.append_cons]
  exact ⟨takeLast_append_takeLast_append s.capacity (cullLive (ageLive s)).live (s.staged ++ [p]) ps,
    ovfAfter_takeLast_append s.capacity (cullLive (ageLive s)).live (s.staged ++ [p]) ps s.ovf⟩

/-- Settles O26: the cap of each STAGE in turn does not show in the next step. -/
theorem cappingStagedIsInvisible : Obligations.CappingStagedIsInvisible := by
  intro ps
  induction ps with
  | nil => intro s; simp
  | cons p ps ih =>
    intro s
    obtain ⟨live, ovf⟩ := ih (stage p s)
    obtain ⟨liveOne, ovfOne⟩ := pointStep_stage_append p ps s
    exact ⟨live.trans liveOne, ovf.trans ovfOne⟩

/-- A point of LIVE as it is `k` intervals later, if it is there. -/
def shownFromLive (f : Nat) (c : Int) (k : Nat) (p : Point) : Option Point :=
  if p.age + (k : Int) * f < c then some { p with age := p.age + (k : Int) * f } else none

/-- A point of STAGED as it is `k` intervals after its admission, if it is there. -/
def shownFromStaged (f : Nat) (c : Int) (k : Nat) (p : Point) : Option Point :=
  if k < lifetime f c p.age then some { p with age := p.age + (k : Int) * f } else none

theorem lifetime_pos (f : Nat) (c a : Int) : 0 < lifetime f c a := by
  unfold lifetime
  omega

/-- The rounding up of rule R116: the point outlasts `k + 1` more intervals exactly when it is below C then. -/
theorem lt_lifetime_iff {f : Nat} (hF : 1 ≤ f) (c a : Int) (k : Nat) :
    k + 1 < lifetime f c a ↔ a + ((k + 1 : Nat) : Int) * f < c := by
  have quotient : ((k : Int) + 2 ≤ (c - a + f - 1) / f) ↔ ((k : Int) + 2) * f ≤ c - a + f - 1 :=
    Int.le_ediv_iff_mul_le (by omega)
  have expand : ((k : Int) + 2) * f = ((k + 1 : Nat) : Int) * f + f := by push_cast; ring
  unfold lifetime
  omega

theorem shownFromStaged_zero (f : Nat) (c : Int) (p : Point) : shownFromStaged f c 0 p = some p := by
  simp [shownFromStaged, lifetime_pos]

theorem shownFromStaged_succ {f : Nat} (hF : 1 ≤ f) (c : Int) (k : Nat) :
    shownFromStaged f c (k + 1) = shownFromLive f c (k + 1) := by
  funext p
  simp only [shownFromStaged, shownFromLive, lt_lifetime_iff hF]

/-- The step that ages and culls is the first of the intervals. -/
theorem shownFromLive_succ (f : Nat) (c : Int) (k : Nat) (p : Point) :
    (if survives c (olderBy f p) then shownFromLive f c k (olderBy f p) else none) = shownFromLive f c (k + 1) p := by
  have later : p.age + (f : Int) + (k : Int) * f = p.age + ((k + 1 : Nat) : Int) * f := by push_cast; ring
  have grows : 0 ≤ (k : Int) * f := by positivity
  simp only [survives_iff, shownFromLive, olderBy, later]
  split
  · rfl
  · rw [if_neg (by omega)]

theorem filterMap_shownFromLive_succ (f : Nat) (c : Int) (k : Nat) (l : List Point) :
    ((l.map (olderBy f)).filter (survives c)).filterMap (shownFromLive f c k) = l.filterMap (shownFromLive f c (k + 1)) := by
  rw [List.filterMap_filter, List.filterMap_map]
  exact congrArg (l.filterMap ·) (funext (shownFromLive_succ f c k))

theorem shownFromLive_zero (f : Nat) (c : Int) : shownFromLive f c 0 = Option.guard (survives c) := by
  funext p
  simp [shownFromLive, Option.guard, survives]

theorem survivors_eq_filterMap (f : Nat) (c : Int) (l : List Point) :
    (l.map (olderBy f)).filter (survives c) = l.filterMap (shownFromLive f c 1) := by
  rw [← filterMap_shownFromLive_succ, shownFromLive_zero, List.filterMap_eq_filter, List.filter_filter]
  simp only [Bool.and_self]

theorem live_pointStep_unbounded {s : State} (hN : s.capacity = .unbounded) :
    (pointStep s).live = (s.live.map (olderBy s.frameInterval)).filter (survives s.decayCeiling) ++ s.staged := by
  rw [pointStep_live, hN, takeLast_unbounded]

theorem live_pointSteps (k : Nat) {s : State} (hN : s.capacity = .unbounded) (hF : 1 ≤ s.frameInterval) :
    (pointSteps (k + 1) s).live = s.live.filterMap (shownFromLive s.frameInterval s.decayCeiling (k + 1)) ++
      s.staged.filterMap (shownFromStaged s.frameInterval s.decayCeiling k) := by
  induction k generalizing s with
  | zero =>
    have admitted : s.staged.filterMap (shownFromStaged s.frameInterval s.decayCeiling 0) = s.staged := by
      rw [funext (shownFromStaged_zero s.frameInterval s.decayCeiling), List.filterMap_some]
    rw [admitted, ← survivors_eq_filterMap]
    exact live_pointStep_unbounded hN
  | succ k ih =>
    have rest : (pointSteps (k + 1) (pointStep s)).live =
        (pointStep s).live.filterMap (shownFromLive s.frameInterval s.decayCeiling (k + 1)) ++ [] :=
      ih (s := pointStep s) hN hF
    rw [pointSteps, rest, List.append_nil, live_pointStep_unbounded hN, List.filterMap_append, filterMap_shownFromLive_succ,
      shownFromStaged_succ hF]

/-- Settles O28: the law for `shownFromLive` and `shownFromStaged`, with these written out. -/
theorem lifetimeOfEveryPoint : Obligations.LifetimeOfEveryPoint :=
  fun _ k hN hF => live_pointSteps k hN hF

/-- PLOT: the initial age `F - CLK` stands for the absolute time at the clock just written. -/
theorem stagedArrivals_stage {s : State} {p : Point} (age : p.age = initialAge s.frameInterval s.clk) :
    stagedArrivals (stage p s) = takeLast s.capacity (stagedArrivals s ++ [(absoluteTime s : Int)]) := by
  have arrival : ((frameCount s : Int) + 1) * s.frameInterval - p.age = (absoluteTime s : Int) := by
    rw [age, initialAge, absoluteTime]
    push_cast
    ring
  rw [stagedArrivals, stage_staged, ← takeLast_map, List.map_append, List.map_singleton, ← arrival]
  rfl

theorem frameCount_framePass (s : State) : frameCount (framePass s) = frameCount s + 1 := rfl

/-- A pass makes a record F older and the frame count one more, so its arrival time stays. -/
theorem arrivals_of_survivors (m f : Nat) (c : Int) (l : List Point) :
    ((l.map (olderBy f)).filter (survives c)).map (fun p => ((m + 1 : Nat) : Int) * f - p.age) =
      (l.map (fun p => (m : Int) * f - p.age)).filter (fun a => decide (((m + 1 : Nat) : Int) * f - a < c)) := by
  have arrival (p : Point) : ((m + 1 : Nat) : Int) * f - (olderBy f p).age = (m : Int) * f - p.age := by
    simp only [olderBy]
    push_cast
    ring
  have young (p : Point) : survives c (olderBy f p) = decide (((m + 1 : Nat) : Int) * f - ((m : Int) * f - p.age) < c) := by
    rw [← arrival, Int.sub_sub_self, survives]
  rw [List.filter_map, List.map_map, List.filter_map]
  simp only [Function.comp_def, arrival, young]

/-- Settles O29: arrival times are kept by PLOT and by a pass, for each record and through the trim. -/
theorem arrivalTimesAreKept : Obligations.ArrivalTimesAreKept := by
  refine ⟨?_, fun s => ⟨?_, rfl⟩⟩
  · intro dt x y b s t h
    cases h
    exact ⟨rfl, stagedArrivals_stage (s := addTime (dtAmount dt) s) rfl⟩
  · rw [liveArrivals, framePass_live, pointStep_live, ← takeLast_map, List.map_append, frameCount_framePass,
      framePass_frameInterval, arrivals_of_survivors]
    rfl

/-- In a sequence of falling ages the expired records stand in front. -/
theorem expired_in_front (c : Int) (l : List Point) (fall : agesFall (l.map (fun p => p.age))) :
    ∃ gone, gone ++ l.filter (survives c) = l ∧ ∀ p ∈ gone, c ≤ p.age := by
  induction l with
  | nil => exact ⟨[], rfl, by simp⟩
  | cons p l ih =>
    obtain ⟨below, rest⟩ := List.pairwise_cons.mp fall
    by_cases young : p.age < c
    · have allYoung : ∀ q ∈ p :: l, survives c q = true := by
        intro q hq
        rcases List.mem_cons.mp hq with rfl | later
        · exact survives_iff.mpr young
        · exact survives_iff.mpr (Int.lt_of_le_of_lt (below _ (List.mem_map_of_mem later)) young)
      exact ⟨[], List.filter_eq_self.mpr allYoung, by simp⟩
    · obtain ⟨gone, split, expired⟩ := ih rest
      have culled : (p :: l).filter (survives c) = l.filter (survives c) :=
        List.filter_cons_of_neg (mt survives_iff.mp young)
      refine ⟨p :: gone, by rw [culled, List.cons_append, split], ?_⟩
      intro q hq
      rcases List.mem_cons.mp hq with rfl | inGone
      · exact Int.not_lt.mp young
      · exact expired q inGone

/-- Settles O30: AGE adds the same to every age, so the aged LIVE falls too. -/
theorem cullRemovesAFrontPart : Obligations.CullRemovesAFrontPart := by
  intro s fall
  have aged := agesFall_map_add fall s.frameInterval
  rw [List.map_map] at aged
  exact expired_in_front s.decayCeiling (ageLive s).live (by rw [ageLive_live, List.map_map]; exact aged)

end Sys2Proof.Machine
end

section
/-! One step under each move and in each phase (rules R105, R134, R150 to R158): what stops it, and what it keeps. -/

namespace Sys2Proof.Machine

theorem step_of_environment {s e : State} (he : environment s = .next e) : step s = blockAction e := by
  rw [step, he, andThen_next]

theorem blockCase_of_step {s e t : State} (he : environment s = .next e) (ht : step s = .next t) : BlockCase e t :=
  blockAction_cases ((step_of_environment he).symm.trans ht)

theorem environment_move {s : State} {m : Move} {ms : List Move} (hm : s.moves = m :: ms) :
    environment s = applyMove m { s with moves := ms } := by
  simp only [environment, hm]

theorem blockAction_reset {s : State} (hr : s.rst = true) : blockAction s = .next (resetBlock s) :=
  if_pos hr

theorem blockAction_drain {s : State} (hr : s.rst = false) (hc : ConfigOk s) (hp : s.ph = .drain) :
    blockAction s = .next (drainPhase s) := by
  obtain ⟨hF, hN⟩ := hc
  simp [blockAction, hr, hN, hp, Nat.ne_of_gt hF]

theorem blockAction_draw {s : State} (hr : s.rst = false) (hc : ConfigOk s) (hp : s.ph = .draw) :
    blockAction s = .next (drawPhase s) := by
  obtain ⟨hF, hN⟩ := hc
  simp [blockAction, hr, hN, hp, Nat.ne_of_gt hF]

theorem idlePhase_word {s : State} {w : Word} {ws : List Word} (hw : s.stream = w :: ws) :
    idlePhase s = andThen (exec (decode s.esc w) { s with stream := ws }) (fun t => .next { t with ph := .drain }) := by
  simp only [idlePhase, hw]

theorem exec_total (i : Instr) (s : State) : ∃ t, exec i s = .next t :=
  ⟨_, exec_eq i s⟩

/-- Settles O13: the block is IDLE with a word, and the body of its command always answers. -/
theorem stepRunsTheDecodedCommand : Obligations.StepRunsTheDecodedCommand := by
  intro s e w ws he hr hc hp hw
  have run : step s = andThen (exec (decode e.esc w) { e with stream := ws }) (fun t => .next { t with ph := .drain }) := by
    rw [step_of_environment he, blockAction_idle hr hc hp, idlePhase_word hw]
  obtain ⟨u, hu⟩ := exec_total (decode e.esc w) { e with stream := ws }
  exact ⟨run, { u with ph := .drain }, by rw [run, hu, andThen_next], rfl, exec_stream hu⟩

/-- Settles O36: every value stands in the definition. -/
theorem resetStateValues : Obligations.ResetStateValues :=
  ⟨rfl, rfl, rfl, rfl, rfl, rfl, rfl, rfl, rfl, rfl, rfl, rfl⟩

/-- Settles O37: the reset test is the first of the block's action. -/
theorem resetOutranksEverything : Obligations.ResetOutranksEverything :=
  fun _ _ he hr => (step_of_environment he).trans (blockAction_reset hr)

/-- The environment drives ports only, and the absolute time is no port. -/
theorem environment_absoluteTime {s e : State} (he : environment s = .next e) : absoluteTime e = absoluteTime s := by
  obtain ⟨_, _, _, _, _, _, rfl⟩ := environment_ports he
  rfl

/-! What the block's action keeps, case by case. -/

theorem exec_keeps_ovf {i : Instr} {s t : State} (h : exec i s = .next t) (set : s.ovf = true) : t.ovf = true := by
  cases i with
  | plot dt x y b => cases h; exact (ovfAfter_eq_true _ _ _).mpr (.inl set)
  | raw n => cases h; exact set
  | esc fill => cases h; exact set
  | blank dt b => cases h; exact set

theorem framePass_keeps_ovf {s : State} (set : s.ovf = true) : (framePass s).ovf = true :=
  (ovfAfter_eq_true _ _ _).mpr (.inl set)

theorem BlockCase.keeps_ovf {s t : State} (action : BlockCase s t) (hr : s.rst = false) (set : s.ovf = true) :
    t.ovf = true := by
  cases action with
  | reset high _ => rw [hr] at high; cases high
  | noWord _ _ _ _ ht => exact ht ▸ set
  | word _ _ _ _ ws u _ hu ht => subst ht; exact (exec_keeps_ovf hu set :)
  | frame _ _ _ _ ht => exact ht ▸ framePass_keeps_ovf set
  | drained _ _ _ _ ht => exact ht ▸ set
  | drawn _ _ _ _ ht => exact ht ▸ set
  | waiting _ _ _ _ ht => exact ht ▸ set

/-- Settles O38: the environment leaves OVF, and out of reset every action keeps it set. -/
theorem onlyResetClearsOvf : Obligations.OnlyResetClearsOvf := by
  intro s e t he ht set clear
  have action := blockCase_of_step he ht
  cases hr : e.rst with
  | true => rfl
  | false =>
    obtain ⟨_, _, _, _, _, _, rfl⟩ := environment_ports he
    have kept : t.ovf = true := action.keeps_ovf hr set
    rw [clear] at kept
    cases kept

/-- No action drives reset or touches N, and only reset samples F and C. -/
theorem BlockCase.configuration {s t : State} (action : BlockCase s t) :
    t.rst = s.rst ∧ t.capacity = s.capacity ∧
      (s.rst = false → t.frameInterval = s.frameInterval ∧ t.decayCeiling = s.decayCeiling) := by
  cases action with
  | reset hr ht => subst ht; exact ⟨rfl, rfl, fun low => by rw [hr] at low; cases low⟩
  | noWord _ _ _ _ ht => subst ht; exact ⟨rfl, rfl, fun _ => ⟨rfl, rfl⟩⟩
  | word _ _ _ _ _ u _ hu ht =>
    subst ht
    exact ⟨(exec_rst hu :), (exec_capacity hu :), fun _ => ⟨(exec_frameInterval hu :), (exec_decayCeiling hu :)⟩⟩
  | frame _ _ _ _ ht => subst ht; exact ⟨rfl, rfl, fun _ => ⟨rfl, rfl⟩⟩
  | drained _ _ _ _ ht => subst ht; exact ⟨rfl, rfl, fun _ => ⟨rfl, rfl⟩⟩
  | drawn _ _ _ _ ht => subst ht; exact ⟨rfl, rfl, fun _ => ⟨rfl, rfl⟩⟩
  | waiting _ _ _ _ ht => subst ht; exact ⟨rfl, rfl, fun _ => ⟨rfl, rfl⟩⟩

/-- Settles O39: the environment drives the inputs only, and the block samples them in reset only. -/
theorem onlyResetChangesConfiguration : Obligations.OnlyResetChangesConfiguration := by
  intro s t ht
  obtain ⟨e, he, action⟩ := step_cases ht
  obtain ⟨hr, hN, sampled⟩ := action.configuration
  obtain ⟨_, _, _, _, _, _, rfl⟩ := environment_ports he
  exact ⟨hN, fun low => sampled (hr.symm.trans low)⟩

theorem BlockCase.live_and_frames {s t : State} (action : BlockCase s t) (hr : s.rst = false) :
    (t.live = s.live ∧ t.frames = s.frames) ∨ (t.frames = t.live :: s.frames ∧ s.ph = .drain ∧ t.ph = .draw) := by
  cases action with
  | reset high _ => rw [hr] at high; cases high
  | noWord _ _ _ _ ht => subst ht; exact .inl ⟨rfl, rfl⟩
  | word _ _ _ _ _ u _ hu ht => subst ht; exact .inl ⟨(exec_live hu :), (exec_frames hu :)⟩
  | frame _ _ hp _ ht => subst ht; exact .inr ⟨rfl, hp, rfl⟩
  | drained _ _ _ _ ht => subst ht; exact .inl ⟨rfl, rfl⟩
  | drawn _ _ _ _ ht => subst ht; exact .inl ⟨rfl, rfl⟩
  | waiting _ _ _ _ ht => subst ht; exact .inl ⟨rfl, rfl⟩

/-- Settles O40: of the block's actions only a drain pass touches LIVE or the trace. -/
theorem liveChangesOnlyWithAFrame : Obligations.LiveChangesOnlyWithAFrame := by
  intro s t ht low
  obtain ⟨e, he, action⟩ := step_cases ht
  obtain ⟨hr, _⟩ := action.configuration
  obtain ⟨_, _, _, _, _, _, rfl⟩ := environment_ports he
  exact action.live_and_frames (hr.symm.trans low)

/-- Settles O41: of the block's actions only the start of a word touches the stream. -/
theorem wordsAreTakenOnceInOrder : Obligations.WordsAreTakenOnceInOrder := by
  intro s e t he ht
  cases blockCase_of_step he ht with
  | reset _ ht => subst ht; exact .inl rfl
  | noWord _ _ _ _ ht => subst ht; exact .inl rfl
  | word hr _ hp w ws u hw hu ht =>
    subst ht
    have rest : u.stream = ws := exec_stream hu
    exact .inr ⟨hp, hr, w, rest ▸ hw⟩
  | frame _ _ _ _ ht => subst ht; exact .inl rfl
  | drained _ _ _ _ ht => subst ht; exact .inl rfl
  | drawn _ _ _ _ ht => subst ht; exact .inl rfl
  | waiting _ _ _ _ ht => subst ht; exact .inl rfl

theorem absoluteTime_exec {i : Instr} {s t : State} (h : exec i s = .next t) :
    absoluteTime t = absoluteTime s + timeAmount i := by
  rw [absoluteTime, absoluteTime, frameCount, frameCount, exec_frames h, exec_frameInterval h, exec_clk h, Nat.add_assoc]

/-- Settles O42: a command body moves time by its amount, and a drain pass gives one frame for F units of the clock. -/
theorem onlyWordsMoveTime : Obligations.OnlyWordsMoveTime := by
  intro s e t he ht low
  have action := blockCase_of_step he ht
  obtain ⟨rst, _⟩ := action.configuration
  have hr : e.rst = false := rst.symm.trans low
  rw [← environment_absoluteTime he]
  cases action with
  | reset high _ => rw [hr] at high; cases high
  | noWord _ _ hp hw ht => simp [ht, hp, hw]
  | word _ _ hp w ws u hw hu ht =>
    simp only [hp, hw, ht, if_true]
    exact (absoluteTime_exec hu :)
  | frame _ _ hp due ht =>
    simp only [hp, ht, reduceCtorEq, if_false]
    exact absoluteTime_framePass due
  | drained _ _ hp _ ht =>
    simp only [hp, ht, reduceCtorEq, if_false]
    rfl
  | drawn _ _ hp _ ht =>
    simp only [hp, ht, reduceCtorEq, if_false]
    rfl
  | waiting _ _ hp _ ht => simp [ht, hp]

/-! Totality and the refusals. -/

theorem applyMove_of_not_breach {m : Move} {s : State} (h : breach m s = false) : ∃ e, applyMove m s = .next e := by
  cases m with
  | quiet => exact ⟨_, rfl⟩
  | deliver ws => exact ⟨_, rfl⟩
  | driveFrameReady level => exact ⟨_, rfl⟩
  | assertReset f c => exact ⟨_, rfl⟩
  | releaseReset => exact ⟨_, rfl⟩
  | presentConfig f c =>
    have allowed : s.rst = true ∨ (f = s.cfgFrameInterval ∧ c = s.cfgDecayCeiling) := by
      cases hr : s.rst with
      | true => exact .inl rfl
      | false => exact .inr (by simpa [breach, hr] using h)
    exact ⟨_, if_pos allowed⟩
  | withdraw n =>
    have allowed : s.rst = true ∨ s.stream.take n = [] := by
      cases hr : s.rst with
      | true => exact .inl rfl
      | false => exact .inr (by simpa [breach, hr] using h)
    exact ⟨_, if_pos allowed⟩

/-- Reset stays asserted under every move but its release. -/
theorem applyMove_keeps_reset {m : Move} {s e : State} (h : applyMove m s = .next e) (notRelease : m ≠ .releaseReset)
    (hr : s.rst = true) : e.rst = true := by
  cases m with
  | quiet => cases h; exact hr
  | deliver ws => cases h; exact hr
  | driveFrameReady level => cases h; exact hr
  | assertReset f c => cases h; rfl
  | releaseReset => exact absurd rfl notRelease
  | presentConfig f c => rw [applyMove, if_pos (.inl hr)] at h; cases h; exact hr
  | withdraw n => rw [applyMove, if_pos (.inl hr)] at h; cases h; exact hr

theorem environment_of_not_breach {s : State} (h : ∀ m ms, s.moves = m :: ms → breach m s = false) :
    ∃ e, environment s = .next e := by
  cases hm : s.moves with
  | nil => exact ⟨s, environment_no_moves hm⟩
  | cons m ms =>
    have kept : breach m { s with moves := ms } = false := by
      rw [← h m ms hm]
      cases m <;> rfl
    rw [environment_move hm]
    exact applyMove_of_not_breach kept

theorem environment_keeps_reset {s e : State} (he : environment s = .next e)
    (notRelease : ∀ ms, s.moves ≠ .releaseReset :: ms) (hr : s.rst = true) : e.rst = true := by
  cases hm : s.moves with
  | nil => rw [environment_no_moves hm] at he; cases he; exact hr
  | cons m ms =>
    rw [environment_move hm] at he
    exact applyMove_keeps_reset he (fun release => notRelease ms (release ▸ hm)) hr

theorem ConfigOk.environment {s e : State} (hc : ConfigOk s) (he : environment s = .next e) : ConfigOk e := by
  obtain ⟨_, _, _, _, _, _, rfl⟩ := environment_ports he
  exact hc

theorem blockAction_total {s : State} (h : ConfigOk s ∨ s.rst = true) : ∃ t, blockAction s = .next t := by
  cases hr : s.rst with
  | true => exact ⟨_, blockAction_reset hr⟩
  | false =>
    have hc : ConfigOk s := h.resolve_right (by simp [hr])
    cases hp : s.ph with
    | drain => exact ⟨_, blockAction_drain hr hc hp⟩
    | draw => exact ⟨_, blockAction_draw hr hc hp⟩
    | idle =>
      rw [blockAction_idle hr hc hp]
      cases hw : s.stream with
      | nil => exact ⟨_, idlePhase_no_word hw⟩
      | cons w ws =>
        obtain ⟨u, hu⟩ := exec_total (decode s.esc w) { s with stream := ws }
        exact ⟨_, by rw [idlePhase_word hw, hu, andThen_next]⟩

/-- Settles O43: the environment's move goes through, and the block's action is total in reset and with an admitted
configuration. -/
theorem admittedInputNeverStops : Obligations.AdmittedInputNeverStops := by
  refine ⟨exec_total, fun s noBreach admitted => ?_⟩
  obtain ⟨e, he⟩ := environment_of_not_breach noBreach
  have kept : ConfigOk e ∨ e.rst = true :=
    admitted.imp (fun hc => hc.environment he) fun ⟨hr, notRelease⟩ => environment_keeps_reset he notRelease hr
  rw [step_of_environment he]
  exact blockAction_total kept

/-- A refused move is a refused step. -/
theorem step_of_refused_move {s : State} {m : Move} {ms : List Move} {r : Refusal} (hm : s.moves = m :: ms)
    (h : applyMove m { s with moves := ms } = .refused r) : step s = .refused r := by
  rw [step, environment_move hm, h]
  rfl

/-- Settles O44: the two breaches stop the environment's part, and the two configurations the block's. -/
theorem breachesAreRefused : Obligations.BreachesAreRefused := by
  intro s hr
  refine ⟨?_, ?_, ?_, ?_, ?_⟩
  · intro hF hm
    rw [step_of_environment (environment_no_moves hm)]
    simp [blockAction, hr, hF]
  · intro hF w
    simp [runWord, hF]
  · intro hF hN hm
    rw [step_of_environment (environment_no_moves hm)]
    simp [blockAction, hr, hN, capacityAdmitted, Nat.ne_of_gt hF]
  · intro f c ms hm changed
    have refused : ¬(s.rst = true ∨ (f = s.cfgFrameInterval ∧ c = s.cfgDecayCeiling)) := by
      rintro (high | ⟨sameF, sameC⟩)
      · rw [hr] at high
        cases high
      · exact changed.elim (fun ne => ne sameF) (fun ne => ne sameC)
    exact step_of_refused_move hm (if_neg refused)
  · intro n ms hm offered
    have refused : ¬(s.rst = true ∨ s.stream.take n = []) := by
      rintro (high | nothing)
      · rw [hr] at high
        cases high
      · exact offered nothing
    exact step_of_refused_move hm (if_neg refused)

/-! The two waits that never time out. -/

/-- Settles O45: the step in DRAW without frame_ready is the identity. -/
theorem stalledCompositorHoldsTheBlock : Obligations.StalledCompositorHoldsTheBlock := by
  intro k s hr hc hp hf hm
  have still : step s = .next s := by
    rw [step_of_environment (environment_no_moves hm), blockAction_draw hr hc hp, drawPhase, hf]
    rfl
  exact runSteps_of_step_eq_self still k

/-- A quiet move in IDLE without a word only goes by. -/
theorem runSteps_idle_quiet (k : Nat) {s : State} (hr : s.rst = false) (hc : ConfigOk s) (hp : s.ph = .idle)
    (hw : s.stream = []) (ms : List Move) (hm : s.moves = List.replicate k .quiet ++ ms) :
    runSteps k s = .next { s with moves := ms } := by
  induction k generalizing s with
  | zero =>
    have hm : s.moves = ms := hm
    subst hm
    rfl
  | succ k ih =>
    have quiet : environment s = .next { s with moves := List.replicate k .quiet ++ ms } := environment_move hm
    rw [runSteps, step_of_environment quiet, blockAction_idle (s := { s with moves := List.replicate k .quiet ++ ms }) hr hc hp,
      idlePhase_no_word (s := { s with moves := List.replicate k .quiet ++ ms }) hw, andThen_next]
    exact ih (s := { s with moves := List.replicate k .quiet ++ ms }) hr hc hp hw rfl

theorem runSteps_one (s : State) : runSteps 1 s = step s :=
  andThen_next_right (step s)

/-- Settles O46: the quiet moves go by, and the delivered word is run as RAW in the step that brings it. -/
theorem pendingEscapeNeverTimesOut : Obligations.PendingEscapeNeverTimesOut := by
  intro k w s hr hc hp hesc hw hm
  have waited := runSteps_idle_quiet k hr hc hp hw [.deliver [w]] hm
  have brings : environment { s with moves := [.deliver [w]] } = .next { s with moves := [], stream := s.stream ++ [w] } := rfl
  obtain ⟨run, _⟩ := stepRunsTheDecodedCommand _ _ w [] brings hr hc hp (by rw [hw, List.nil_append])
  refine ⟨waited, ?_⟩
  rw [runSteps_add, waited, andThen_next, runSteps_one, run]
  simp only [hesc, decode_escapePending, exec_raw, andThen_next, ← hw]

end Sys2Proof.Machine
end

section
/-! Time over a drain and over a word sequence (rules R25, R66, R70, R86 and R101). -/

namespace Sys2Proof.Machine

/-- After a drained frame nothing is staged, and no later pass stages anything. -/
theorem drain_staged {s : State} (hF : 1 ≤ s.frameInterval) (due : s.frameInterval ≤ s.clk) : (drain s).staged = [] := by
  rw [drain_due hF due]
  exact drain_induction (P := fun u => u.staged = []) (fun _ _ _ => rfl) rfl

/-- Settles O15: the frame count law of the drain, and STAGED behind its first pass. -/
theorem drainCountsFrames : Obligations.DrainCountsFrames :=
  fun _ hF => ⟨frameCount_drain hF, drain_clk hF, drain_staged hF⟩

/-- ESC after a word, as the command body leaves it: PLOT and BLANK are read in NORMAL and keep it. -/
theorem exec_escAfter {w : Word} {s t : State} (h : exec (decode s.esc w) s = .next t) : t.esc = escAfter s.esc w := by
  have mode : (decode s.esc w).mode = s.esc := decode_mode s.esc w
  unfold escAfter
  cases hd : decode s.esc w with
  | raw n => rw [hd] at h; cases h; rfl
  | esc fill => rw [hd] at h; cases h; rfl
  | blank dt b => rw [hd] at h mode; cases h; exact mode.symm
  | plot dt x y b => rw [hd] at h mode; cases h; exact mode.symm

/-- A word sequence runs to its end, which is below F, and moves the absolute time by its amounts. -/
theorem feed_next (ws : List Word) {s : State} (low : s.clk < s.frameInterval) : ∃ t, feed ws s = .next t ∧
    t.frameInterval = s.frameInterval ∧ t.clk < s.frameInterval ∧ absoluteTime t = absoluteTime s + totalTime s.esc ws := by
  induction ws generalizing s with
  | nil => exact ⟨s, rfl, rfl, low, rfl⟩
  | cons w ws ih =>
    have hF : 1 ≤ s.frameInterval := Nat.one_le_of_lt low
    obtain ⟨u, hu⟩ := exec_total (decode s.esc w) s
    have hFu : u.frameInterval = s.frameInterval := exec_frameInterval hu
    obtain ⟨t, ht, hFt, lowT, time⟩ := ih (s := drain u) (by rw [drain_frameInterval]; exact drain_clk_lt (hFu ▸ hF))
    rw [drain_frameInterval, hFu] at hFt lowT
    refine ⟨t, by rw [feed_cons, runWord_of_exec hF hu, andThen_next, ht], hFt, lowT, ?_⟩
    rw [time, drain_esc, absoluteTime_drain, absoluteTime_exec hu, exec_escAfter hu, totalTime, Nat.add_assoc]

/-- A balance of time with the clock below F gives the frames and the rest. -/
theorem frames_and_rest_of_balance {f c n c' n' : Nat} (low : c' < f) (balance : n' * f + c' = n * f + c) :
    n' = n + c / f ∧ c' = c % f := by
  have pos : 0 < f := Nat.zero_lt_of_lt low
  constructor
  · calc n'
      _ = (c' + n' * f) / f := by rw [Nat.add_mul_div_right _ _ pos, Nat.div_eq_of_lt low, Nat.zero_add]
      _ = (c + n * f) / f := by rw [Nat.add_comm c', balance, Nat.add_comm c]
      _ = n + c / f := by rw [Nat.add_mul_div_right _ _ pos, Nat.add_comm]
  · calc c'
      _ = (c' + n' * f) % f := by rw [Nat.add_mul_mod_self_right, Nat.mod_eq_of_lt low]
      _ = (c + n * f) % f := by rw [Nat.add_comm c', balance, Nat.add_comm c]
      _ = c % f := Nat.add_mul_mod_self_right ..

/-- Settles O16: the absolute time at the end, with the clock below F, fixes the frames and the clock. -/
theorem feedCountsFrames : Obligations.FeedCountsFrames := by
  intro ws s low
  obtain ⟨t, ht, hF, lowT, time⟩ := feed_next ws low
  have balance : frameCount t * s.frameInterval + t.clk = frameCount s * s.frameInterval + (s.clk + totalTime s.esc ws) := by
    rw [absoluteTime, absoluteTime, hF] at time
    omega
  obtain ⟨frames, rest⟩ := frames_and_rest_of_balance lowT balance
  exact ⟨t, ht, frames, rest, time⟩

/-- A marker and its payload. -/
theorem feed_escape_pair {marker : Word} (w : Word) {s : State} (low : s.clk < s.frameInterval) (he : s.esc = .normal)
    (isMarker : dtField marker = Config.dtEsc) :
    feed [marker, w] s = .next (drain { s with clk := s.clk + w.toNat }) := by
  rw [feed_cons, runWord_marker low he isMarker, andThen_next, feed_singleton,
    runWord_escapePending (s := { s with esc := .escapePending }) w (Nat.one_le_of_lt low) rfl]
  simp only [he]

/-- Settles O11: the marker arms the escape, and whatever follows is the payload. -/
theorem escapePairAddsItsPayload : Obligations.EscapePairAddsItsPayload :=
  fun _ w _ low he isMarker => ⟨feed_escape_pair w low he isMarker, (drain_esc _).trans he⟩

theorem feed_waitCommands (n : Word) {s : State} (low : s.clk < s.frameInterval) (he : s.esc = .normal) :
    feed ((waitCommands n).map encode) s = .next (drain { s with clk := s.clk + n.toNat }) := by
  have isMarker : dtField (encode (.esc 0)) = Config.dtEsc := (Laws.EncodeFields.esc 0).1
  have words : (waitCommands n).map encode = [encode (.esc 0), n] := rfl
  rw [words, feed_escape_pair n low he isMarker]

theorem feed_idleCommands {dt : BitVec 9} (notMarker : dt ≠ Config.dtEsc) {s : State} (hF : 1 ≤ s.frameInterval)
    (he : s.esc = .normal) : feed ((idleCommands dt).map encode) s = .next (drain { s with clk := s.clk + dt.toNat }) := by
  obtain ⟨hdt, _, hx, hy⟩ := Laws.EncodeFields.blank dt 0
  have word : runWord (encode (.blank dt 0)) s =
      .next (drain { s with clk := s.clk + (dtField (encode (.blank dt 0))).toNat }) :=
    runWord_blank hF he (fun marker => notMarker (hdt.symm.trans marker)) hx hy
  rw [hdt] at word
  exact (feed_singleton _ s).trans word

/-- Settles O12: WAIT is an escape pair, IDLE a BLANK word, and NOP is IDLE 0. -/
theorem pseudoCommandsDoWhatTheyStandFor : Obligations.PseudoCommandsDoWhatTheyStandFor := by
  intro n s low he
  have hF : 1 ≤ s.frameInterval := Nat.one_le_of_lt low
  refine ⟨feed_waitCommands n low he, ?_, ?_⟩
  · intro small
    have dt : (BitVec.ofNat 9 n.toNat).toNat = n.toNat := by
      rw [BitVec.toNat_ofNat]
      omega
    have notMarker : BitVec.ofNat 9 n.toNat ≠ Config.dtEsc := by
      intro marker
      have value : n.toNat = 511 := by rw [← dt, marker]; rfl
      omega
    rw [feed_waitCommands n low he, feed_idleCommands notMarker hF he, dt]
  · have nop : feed (nopCommands.map encode) s = .next (drain s) := feed_idleCommands (dt := 0) (by decide) hF he
    rw [nop, drain_not_due low]

end Sys2Proof.Machine
end

section
/-! What a word sequence keeps (rule R86): a property that every word keeps holds at the end. The safe states between two
words. -/

namespace Sys2Proof.Machine

theorem runWord_eq_next {w : Word} {s t : State} (h : runWord w s = .next t) :
    1 ≤ s.frameInterval ∧ ∃ u, exec (decode s.esc w) s = .next u ∧ t = drain u := by
  unfold runWord at h
  split at h
  case isTrue => cases h
  case isFalse hF =>
    obtain ⟨u, hu, ht⟩ := andThen_eq_next h
    cases ht
    exact ⟨Nat.le_of_not_lt hF, u, hu, rfl⟩

theorem feed_cons_eq_next {w : Word} {ws : List Word} {s t : State} (h : feed (w :: ws) s = .next t) :
    ∃ u, runWord w s = .next u ∧ feed ws u = .next t :=
  andThen_eq_next h

theorem feed_induction {P : State → Prop} (word : ∀ w s t, runWord w s = .next t → P s → P t) (ws : List Word)
    {s t : State} (h : feed ws s = .next t) (hs : P s) : P t := by
  induction ws generalizing s with
  | nil => cases h; exact hs
  | cons w ws ih =>
    obtain ⟨u, hu, ht⟩ := feed_cons_eq_next h
    exact ih ht (word w s u hu hs)

/-- A property that every command body and every due pass keep is kept by a word sequence. -/
theorem feed_induction_of_parts {P : State → Prop} (body : ∀ i s t, exec i s = .next t → P s → P t)
    (pass : ∀ s, s.frameInterval ≤ s.clk → P s → P (framePass s)) (ws : List Word) {s t : State} (h : feed ws s = .next t)
    (hs : P s) : P t := by
  refine feed_induction ?_ ws h hs
  intro w s t ht hs
  obtain ⟨_, u, hu, rfl⟩ := runWord_eq_next ht
  exact drain_induction pass (body _ s u hu hs)

theorem drain_ph (s : State) : (drain s).ph = s.ph := by
  rw [drain_frame]
  rfl

theorem drain_rst (s : State) : (drain s).rst = s.rst := by
  rw [drain_frame]
  rfl

theorem drain_capacity (s : State) : (drain s).capacity = s.capacity := by
  rw [drain_frame]
  rfl

/-- What holds of the block between two words of the atomic procedure. -/
structure BetweenWords (s : State) : Prop where
  points : PointsOk s
  config : ConfigOk s
  rst : s.rst = false
  idle : s.ph = .idle
  low : s.clk < s.frameInterval

theorem BetweenWords.inv {s : State} (h : BetweenWords s) : Inv s :=
  h.points.inv h.rst h.config (fun _ => h.low) (Nat.le_trans (Nat.le_of_lt h.low) (Nat.le_add_right _ _))
    (fun draw => by rw [h.idle] at draw; cases draw)

theorem BetweenWords.runWord {w : Word} {s t : State} (h : BetweenWords s) (ht : runWord w s = .next t) : BetweenWords t := by
  obtain ⟨hF, u, hu, rfl⟩ := runWord_eq_next ht
  have wf : (decode s.esc w).wellFormed = true := decode_wellFormed s.esc w
  have hFu : u.frameInterval = s.frameInterval := exec_frameInterval hu
  exact {
    points := drain_induction (fun _ due points => points.framePass due) (h.points.exec wf h.low hu)
    config := ⟨by rw [drain_frameInterval, hFu]; exact hF, by rw [drain_capacity, exec_capacity hu]; exact h.config.2⟩
    rst := by rw [drain_rst, exec_rst hu]; exact h.rst
    idle := by rw [drain_ph, exec_ph hu]; exact h.idle
    low := by rw [drain_frameInterval]; exact drain_clk_lt (hFu ▸ hF) }

/-- Settles O33: a reset state is a state between words, and every word leads to another one. -/
theorem reachableStatesAreSafe : Obligations.ReachableStatesAreSafe := by
  rintro s ⟨f, c, n, ws, hc, fed⟩
  have boot : BetweenWords (bootState f c n) := ⟨(inv_bootState hc).points, hc, rfl, rfl, hc.1⟩
  have final : BetweenWords s := feed_induction (fun _ _ _ ht h => h.runWord ht) ws fed boot
  exact ⟨final.inv, final.idle, final.low⟩

end Sys2Proof.Machine
end

section
/-! A run without overflow (rule R115, decision D6): it is the run without a capacity, and no staged point is lost. -/

namespace Sys2Proof.Machine

/-- The same state with no capacity. -/
def uncapped (s : State) : State := { s with capacity := .unbounded }

theorem ovfAfter_eq_false {n : Config.Capacity} {len : Nat} {ovf : Bool} :
    ovfAfter n len ovf = false ↔ ovf = false ∧ overCapacity n len = false :=
  Bool.or_eq_false_iff

/-- A trim that leaves OVF clear is none, and without a capacity there is none. -/
theorem stage_uncapped {p : Point} {s : State} (clear : (stage p s).ovf = false) :
    stage p (uncapped s) = uncapped (stage p s) := by
  obtain ⟨before, fits⟩ := ovfAfter_eq_false.mp clear
  have staged : (stage p s).staged = s.staged ++ [p] := takeLast_of_fits fits
  have ovf : (stage p s).ovf = s.ovf := clear.trans before.symm
  calc stage p (uncapped s)
    _ = { uncapped s with staged := s.staged ++ [p], ovf := s.ovf } := by simp [stage, uncapped, ovfAfter]
    _ = { uncapped s with staged := (stage p s).staged, ovf := (stage p s).ovf } := by rw [staged, ovf]
    _ = uncapped (stage p s) := rfl

theorem framePass_uncapped {s : State} (clear : (framePass s).ovf = false) :
    framePass (uncapped s) = uncapped (framePass s) := by
  obtain ⟨before, fits⟩ := ovfAfter_eq_false.mp clear
  have live : (pointStep s).live = (cullLive (ageLive s)).live ++ s.staged := takeLast_of_fits fits
  have ovf : (pointStep s).ovf = s.ovf := clear.trans before.symm
  have step : pointStep (uncapped s) = uncapped (pointStep s) :=
    calc pointStep (uncapped s)
      _ = { uncapped s with live := (cullLive (ageLive s)).live ++ s.staged, staged := [], ovf := s.ovf } := by
          simp [pointStep, admitStaged, cullLive, ageLive, uncapped, ovfAfter]
      _ = { uncapped s with live := (pointStep s).live, staged := [], ovf := (pointStep s).ovf } := by rw [live, ovf]
      _ = uncapped (pointStep s) := rfl
  rw [framePass_eq, framePass_eq, step]
  rfl

theorem exec_uncapped {i : Instr} {s t : State} (h : exec i s = .next t) (clear : t.ovf = false) :
    exec i (uncapped s) = .next (uncapped t) := by
  cases i with
  | raw n => cases h; rfl
  | esc fill => cases h; rfl
  | blank dt b => cases h; rfl
  | plot dt x y b =>
    cases h
    exact congrArg Host.Outcome.next (stage_uncapped (s := addTime (dtAmount dt) s) clear)

theorem drainLoop_keeps_ovf (fuel : Nat) {s : State} (set : s.ovf = true) : (drainLoop fuel s).ovf = true :=
  drainLoop_induction (P := fun u => u.ovf = true) (fun _ _ => framePass_keeps_ovf) fuel set

theorem ovf_clear_of_drainLoop {fuel : Nat} {s : State} (clear : (drainLoop fuel s).ovf = false) : s.ovf = false := by
  by_contra set
  rw [drainLoop_keeps_ovf fuel (Bool.eq_true_of_not_eq_false set)] at clear
  cases clear

theorem drainLoop_uncapped (fuel : Nat) {s : State} (clear : (drainLoop fuel s).ovf = false) :
    drainLoop fuel (uncapped s) = uncapped (drainLoop fuel s) := by
  induction fuel generalizing s with
  | zero => rfl
  | succ fuel ih =>
    by_cases due : s.frameInterval ≤ s.clk
    · rw [drainLoop_due due] at clear ⊢
      rw [drainLoop_due (s := uncapped s) due, framePass_uncapped (ovf_clear_of_drainLoop clear), ih clear]
    · have low : s.clk < s.frameInterval := Nat.lt_of_not_le due
      rw [drainLoop_not_due low, drainLoop_not_due (s := uncapped s) low]

theorem runWord_uncapped {w : Word} {s t : State} (h : runWord w s = .next t) (clear : t.ovf = false) :
    runWord w (uncapped s) = .next (uncapped t) := by
  obtain ⟨hF, u, hu, rfl⟩ := runWord_eq_next h
  have body : exec (decode s.esc w) (uncapped s) = .next (uncapped u) := exec_uncapped hu (ovf_clear_of_drainLoop clear)
  rw [runWord_of_exec (s := uncapped s) hF body]
  exact congrArg Host.Outcome.next (drainLoop_uncapped u.clk clear)

theorem ovf_clear_of_feed {ws : List Word} {s t : State} (h : feed ws s = .next t) (clear : t.ovf = false) : s.ovf = false := by
  by_contra set
  have kept : t.ovf = true := feed_induction_of_parts (P := fun u => u.ovf = true) (fun _ _ _ => exec_keeps_ovf)
    (fun _ _ => framePass_keeps_ovf) ws h (Bool.eq_true_of_not_eq_false set)
  rw [clear] at kept
  cases kept

theorem feed_uncapped (ws : List Word) {s t : State} (h : feed ws s = .next t) (clear : t.ovf = false) :
    feed ws (uncapped s) = .next (uncapped t) := by
  induction ws generalizing s with
  | nil => cases h; rfl
  | cons w ws ih =>
    obtain ⟨u, hu, ht⟩ := feed_cons_eq_next h
    rw [feed_cons, runWord_uncapped hu (ovf_clear_of_feed ht clear), andThen_next, ih ht]

theorem feed_capacity {ws : List Word} {s t : State} (h : feed ws s = .next t) : t.capacity = s.capacity :=
  feed_induction_of_parts (P := fun u => u.capacity = s.capacity) (fun _ _ _ hu kept => (exec_capacity hu).trans kept)
    (fun _ _ kept => kept) ws h rfl

theorem uncapped_of_unbounded {s : State} (hN : s.capacity = .unbounded) : uncapped s = s := by
  rw [uncapped, ← hN]

/-- Settles O27: with OVF clear at the end no trim took anything on the way; and a state without a capacity is its own
`uncapped`. -/
theorem capacityIsInvisibleWithoutOverflow : Obligations.CapacityIsInvisibleWithoutOverflow := by
  intro ws s t h noOverflow
  rcases noOverflow with clear | hN
  · exact feed_uncapped ws h clear
  · have hNs : s.capacity = .unbounded := (feed_capacity h).symm.trans hN
    have fed : feed ws (uncapped s) = .next (uncapped t) := by rw [uncapped_of_unbounded hNs, uncapped_of_unbounded hN, h]
    exact fed

/-- Without a capacity: the point is staged until frame event number `n`, and event number `n` carries it. -/
structure CarriesInEvent (n : Nat) (p : Point) (s : State) : Prop where
  unbounded : s.capacity = .unbounded
  reached : n ≤ frameCount s
  waits : frameCount s = n → p ∈ s.staged
  shown : n < frameCount s → ∃ f, (trace s)[n]? = some f ∧ p ∈ f

theorem CarriesInEvent.exec {n : Nat} {p : Point} {i : Instr} {s t : State} (h : exec i s = .next t)
    (carries : CarriesInEvent n p s) : CarriesInEvent n p t := by
  have frames : t.frames = s.frames := exec_frames h
  have count : frameCount t = frameCount s := congrArg List.length frames
  have staged : p ∈ s.staged → p ∈ t.staged := by
    intro hp
    cases i with
    | raw n => cases h; exact hp
    | esc fill => cases h; exact hp
    | blank dt b => cases h; exact hp
    | plot dt x y b =>
      cases h
      show p ∈ takeLast s.capacity _
      rw [carries.unbounded]
      exact List.mem_append_left _ hp
  exact {
    unbounded := (exec_capacity h).trans carries.unbounded
    reached := count ▸ carries.reached
    waits := fun same => staged (carries.waits (count ▸ same))
    shown := by rw [count, trace, frames]; exact carries.shown }

theorem trace_framePass (s : State) : trace (framePass s) = trace s ++ [(framePass s).live] :=
  List.reverse_cons

theorem length_trace (s : State) : (trace s).length = frameCount s :=
  List.length_reverse

/-- The pass that makes event `n` admits all of STAGED; later passes only add events. -/
theorem CarriesInEvent.framePass {n : Nat} {p : Point} {s : State} (carries : CarriesInEvent n p s) :
    CarriesInEvent n p (framePass s) where
  unbounded := carries.unbounded
  reached := Nat.le_succ_of_le carries.reached
  waits same := by
    rw [frameCount_framePass] at same
    have := carries.reached
    omega
  shown _ := by
    rw [trace_framePass]
    rcases Nat.eq_or_lt_of_le carries.reached with now | before
    · refine ⟨(Machine.framePass s).live, ?_, ?_⟩
      · rw [now, ← length_trace, List.getElem?_concat_length]
      · rw [framePass_live, live_pointStep_unbounded carries.unbounded]
        exact List.mem_append_right _ (carries.waits now.symm)
    · rw [List.getElem?_append_left (by rw [length_trace]; exact before)]
      exact carries.shown before

/-- Settles O47: the run is the run without a capacity, where every command body and every pass keep `CarriesInEvent`. -/
theorem firstFrameShowsEveryStagedPoint : Obligations.FirstFrameShowsEveryStagedPoint := by
  intro ws s t p _ hp h noOverflow
  have fed : feed ws (uncapped s) = .next (uncapped t) := capacityIsInvisibleWithoutOverflow ws s t h noOverflow
  have start : CarriesInEvent (frameCount s) p (uncapped s) :=
    ⟨rfl, Nat.le_refl _, fun _ => hp, fun less => absurd less (Nat.lt_irrefl _)⟩
  have final : CarriesInEvent (frameCount s) p (uncapped t) :=
    feed_induction_of_parts (fun _ _ _ => CarriesInEvent.exec) (fun _ _ => CarriesInEvent.framePass) ws fed start
  exact ⟨final.waits, final.shown⟩

end Sys2Proof.Machine
end

section
/-! The small-step machine against the atomic procedure (rules R52, R80, R86 and R105), when nothing but the compositor's done
signal is needed: the drain in steps, and one word in steps. -/

namespace Sys2Proof.Machine

/-- Out of reset, admitted, with a compositor that is done at once and no more moves of the environment. -/
structure Undisturbed (s : State) : Prop where
  rst : s.rst = false
  config : ConfigOk s
  done : s.frameReady = true
  still : s.moves = []

theorem step_drain_due {s : State} (h : Undisturbed s) (hp : s.ph = .drain) (due : s.frameInterval ≤ s.clk) :
    step s = .next { framePass s with ph := .draw } := by
  rw [step_of_environment (environment_no_moves h.still), blockAction_drain h.rst h.config hp, drainPhase,
    if_pos ((frameDue_iff s).mpr due)]

theorem step_drain_done {s : State} (h : Undisturbed s) (hp : s.ph = .drain) (low : s.clk < s.frameInterval) :
    step s = .next { s with ph := .idle } := by
  rw [step_of_environment (environment_no_moves h.still), blockAction_drain h.rst h.config hp, drainPhase,
    if_neg (mt (frameDue_iff s).mp (Nat.not_le.mpr low))]

theorem step_draw_done {s : State} (h : Undisturbed s) (hp : s.ph = .draw) : step s = .next { s with ph := .drain } := by
  rw [step_of_environment (environment_no_moves h.still), blockAction_draw h.rst h.config hp, drawPhase, if_pos h.done]

theorem runSteps_succ_of_step {s t : State} (h : step s = .next t) (k : Nat) : runSteps (k + 1) s = runSteps k t := by
  rw [runSteps, h, andThen_next]

theorem drain_with_phase (s : State) (p : Phase) : drain { s with ph := p } = { drain s with ph := p } :=
  drainLoop_with_phase p s.clk s

/-- Two steps for each frame, DRAIN to DRAW and back, and one to IDLE. -/
theorem runSteps_drain (n : Nat) {s : State} (h : Undisturbed s) (hp : s.ph = .drain) (frames : s.clk / s.frameInterval = n) :
    runSteps (2 * n + 1) s = .next { drain s with ph := .idle } := by
  have hF : 1 ≤ s.frameInterval := h.config.1
  induction n generalizing s with
  | zero =>
    have low : s.clk < s.frameInterval := (Nat.div_eq_zero_iff_lt hF).mp frames
    rw [runSteps_succ_of_step (step_drain_done h hp low), drain_not_due low]
    rfl
  | succ n ih =>
    have due : s.frameInterval ≤ s.clk := (Nat.div_pos_iff.mp (by omega)).2
    have shown : Undisturbed { framePass s with ph := .draw } := ⟨h.rst, h.config, h.done, h.still⟩
    have drawn : Undisturbed { framePass s with ph := .drain } := ⟨h.rst, h.config, h.done, h.still⟩
    have rest : (s.clk - s.frameInterval) / s.frameInterval = n := by
      have passed := Nat.div_eq_sub_div hF due
      omega
    rw [Nat.mul_succ, Nat.add_right_comm, runSteps_succ_of_step (step_drain_due h hp due),
      runSteps_succ_of_step (step_draw_done shown rfl)]
    rw [drain_due hF due]
    exact (ih drawn rfl rest hF).trans (by rw [drain_with_phase])

theorem ConfigOk.exec {i : Instr} {s t : State} (hc : ConfigOk s) (h : exec i s = .next t) : ConfigOk t := by
  rw [ConfigOk, exec_frameInterval h, exec_capacity h]
  exact hc

theorem Undisturbed.exec {i : Instr} {s t : State} (h : Undisturbed s) (ht : exec i s = .next t) : Undisturbed t :=
  ⟨(exec_rst ht).trans h.rst, h.config.exec ht, (exec_frameReady ht).trans h.done, (exec_moves ht).trans h.still⟩

theorem Undisturbed.drain {s : State} (h : Undisturbed s) : Undisturbed (drain s) := by
  rw [drain_frame]
  exact ⟨h.rst, h.config, h.done, h.still⟩

theorem Undisturbed.with_phase {s : State} (h : Undisturbed s) (p : Phase) : Undisturbed { s with ph := p } :=
  ⟨h.rst, h.config, h.done, h.still⟩

theorem drain_stream (s : State) : (drain s).stream = s.stream := by
  rw [drain_frame]
  rfl

/-- The atomic procedure on the word that an undisturbed IDLE block is offered, and the same in steps. -/
theorem runSteps_word {s : State} {w : Word} {ws : List Word} (h : Undisturbed s) (hp : s.ph = .idle) (hw : s.stream = w :: ws) :
    ∃ t, (runWord w { s with stream := ws } = .next t ∧
      runSteps (2 + 2 * ((s.clk + timeAmount (decode s.esc w)) / s.frameInterval)) s = .next t) ∧
      Undisturbed t ∧ t.ph = .idle ∧ t.stream = ws := by
  obtain ⟨u, hu⟩ := exec_total (decode s.esc w) { s with stream := ws }
  have begun : step s = .next { u with ph := .drain } := by
    obtain ⟨run, _⟩ := stepRunsTheDecodedCommand s s w ws (environment_no_moves h.still) h.rst h.config hp hw
    rw [run, hu, andThen_next]
  have taken : Undisturbed { s with stream := ws } := ⟨h.rst, h.config, h.done, h.still⟩
  have running : Undisturbed u := taken.exec hu
  have idle : (drain u).ph = .idle := by rw [drain_ph, exec_ph hu]; exact hp
  have frames : u.clk / u.frameInterval = (s.clk + timeAmount (decode s.esc w)) / s.frameInterval := by
    rw [exec_clk hu, exec_frameInterval hu]
  have drained : runSteps (2 * (u.clk / u.frameInterval) + 1) { u with ph := .drain } = .next (drain u) := by
    rw [runSteps_drain (u.clk / u.frameInterval) (running.with_phase .drain) rfl rfl, drain_with_phase, ← idle]
  refine ⟨drain u, ⟨runWord_of_exec (s := { s with stream := ws }) h.config.1 hu, ?_⟩, running.drain, idle, ?_⟩
  · rw [← frames, Nat.add_comm 2, runSteps_succ_of_step begun, drained]
  · rw [drain_stream, exec_stream hu]

/-- Settles O19: the word is taken in one step, and the drain behind it takes two for each frame and one more. -/
theorem smallStepsRunOneWord : Obligations.SmallStepsRunOneWord := by
  intro s w ws hr hc hp hm hf hw
  obtain ⟨t, run, _⟩ := runSteps_word ⟨hr, hc, hf, hm⟩ hp hw
  exact ⟨t, run⟩

end Sys2Proof.Machine
end

section
/-! Chunks, delays and a late compositor (rules R41, R50, R52 and R105): a step keeps what the atomic procedure will make of the
state and of the words still to come. -/

namespace Sys2Proof.Machine

/-- The ports that a feeding environment drives, at these levels. -/
def withPorts (v : Bool) (ws : List Word) (ms : List Move) (s : State) : State :=
  { s with frameReady := v, stream := ws, moves := ms }

theorem exec_withPorts {i : Instr} {s t : State} (h : exec i s = .next t) (v : Bool) (ws : List Word) (ms : List Move) :
    exec i (withPorts v ws ms s) = .next (withPorts v ws ms t) := by
  cases i <;> cases h <;> rfl

theorem runWord_withPorts {w : Word} {s t : State} (h : runWord w s = .next t) (v : Bool) (ws : List Word) (ms : List Move) :
    runWord w (withPorts v ws ms s) = .next (withPorts v ws ms t) := by
  obtain ⟨hF, u, hu, rfl⟩ := runWord_eq_next h
  rw [runWord_of_exec (s := withPorts v ws ms s) hF (exec_withPorts hu v ws ms)]
  exact congrArg Host.Outcome.next (drainLoop_with_ports v ws ms u.clk u)

theorem feed_withPorts {words : List Word} {s t : State} (h : feed words s = .next t) (v : Bool) (ws : List Word)
    (ms : List Move) : feed words (withPorts v ws ms s) = .next (withPorts v ws ms t) := by
  induction words generalizing s with
  | nil => cases h; rfl
  | cons w words ih =>
    obtain ⟨u, hu, ht⟩ := feed_cons_eq_next h
    rw [feed_cons, runWord_withPorts hu, andThen_next, ih ht]

theorem feed_total (words : List Word) {s : State} (hF : 1 ≤ s.frameInterval) : ∃ t, feed words s = .next t := by
  induction words generalizing s with
  | nil => exact ⟨s, rfl⟩
  | cons w words ih =>
    obtain ⟨u, hu⟩ := exec_total (decode s.esc w) s
    obtain ⟨t, ht⟩ := ih (s := drain u) (by rw [drain_frameInterval, exec_frameInterval hu]; exact hF)
    exact ⟨t, by rw [feed_cons, runWord_of_exec hF hu, andThen_next, ht]⟩

/-- The state at the end of the word in progress. -/
def wordFinished (s : State) : State :=
  if s.ph = .idle then s else { drain s with ph := .idle }

/-- What the atomic procedure makes of the word in progress, of the offered words and of those the environment will deliver. -/
def fedToEnd (s : State) : Host.Outcome State Fault Refusal :=
  feed (s.stream ++ deliveredWords s.moves) (withPorts true [] [] (wordFinished s))

theorem wordFinished_idle {s : State} (hp : s.ph = .idle) : wordFinished s = s :=
  if_pos hp

theorem wordFinished_busy {s : State} (busy : s.ph ≠ .idle) : wordFinished s = { drain s with ph := .idle } :=
  if_neg busy

theorem wordFinished_with_phase {s : State} {p : Phase} (busy : p ≠ .idle) :
    wordFinished { s with ph := p } = { drain s with ph := .idle } := by
  rw [wordFinished_busy (s := { s with ph := p }) busy, drain_with_phase]

theorem wordFinished_withPorts (v : Bool) (ws : List Word) (ms : List Move) (s : State) :
    wordFinished (withPorts v ws ms s) = withPorts v ws ms (wordFinished s) := by
  by_cases hp : s.ph = .idle
  · rw [wordFinished_idle hp, wordFinished_idle (s := withPorts v ws ms s) hp]
  · have drained : drain (withPorts v ws ms s) = withPorts v ws ms (drain s) := drainLoop_with_ports v ws ms s.clk s
    rw [wordFinished_busy hp, wordFinished_busy (s := withPorts v ws ms s) hp, drained]
    rfl

theorem fedToEnd_of_finished {s t : State} (words : t.stream ++ deliveredWords t.moves = s.stream ++ deliveredWords s.moves)
    (finished : withPorts true [] [] (wordFinished t) = withPorts true [] [] (wordFinished s)) : fedToEnd t = fedToEnd s := by
  rw [fedToEnd, fedToEnd, words, finished]

/-- Out of reset and admitted, with an environment that only feeds and a compositor that is done in the end. -/
structure Fed (s : State) : Prop where
  rst : s.rst = false
  config : ConfigOk s
  feeding : ∀ m ∈ s.moves, feedingMove m = true
  ready : levelAfter s.frameReady s.moves = true

/-- A move that brings a part of the words still to come, or none of them. -/
theorem Fed.moved {s : State} {m : Move} {ms : List Move} (h : Fed s) (hm : s.moves = m :: ms) (v : Bool) (ws : List Word)
    (level : levelAfter v ms = levelAfter s.frameReady s.moves)
    (words : ws ++ deliveredWords ms = s.stream ++ deliveredWords s.moves) :
    Fed (withPorts v ws ms s) ∧ fedToEnd (withPorts v ws ms s) = fedToEnd s := by
  have rest : ∀ n ∈ ms, feedingMove n = true := fun n hn => h.feeding n (hm ▸ List.mem_cons_of_mem m hn)
  refine ⟨⟨h.rst, h.config, rest, level.trans h.ready⟩, fedToEnd_of_finished words ?_⟩
  rw [wordFinished_withPorts]
  rfl

theorem Fed.environment {s : State} {m : Move} {ms : List Move} (h : Fed s) (hm : s.moves = m :: ms) :
    ∃ e, environment s = .next e ∧ e.moves = ms ∧ Fed e ∧ fedToEnd e = fedToEnd s := by
  have feeding : feedingMove m = true := h.feeding m (hm ▸ List.mem_cons_self)
  rw [environment_move hm]
  cases m with
  | quiet => exact ⟨_, rfl, rfl, h.moved hm s.frameReady s.stream (by rw [hm, levelAfter]) (by rw [hm, deliveredWords])⟩
  | deliver ws =>
    exact ⟨_, rfl, rfl, h.moved hm s.frameReady (s.stream ++ ws) (by rw [hm, levelAfter])
      (by rw [hm, deliveredWords, List.append_assoc])⟩
  | driveFrameReady v => exact ⟨_, rfl, rfl, h.moved hm v s.stream (by rw [hm, levelAfter]) (by rw [hm, deliveredWords])⟩
  | assertReset f c => cases feeding
  | releaseReset => cases feeding
  | presentConfig f c => cases feeding
  | withdraw n => cases feeding

/-- The step that takes a word leaves the word in progress that the atomic procedure runs next. -/
theorem fedToEnd_word {s u : State} {w : Word} {ws : List Word} (hF : 1 ≤ s.frameInterval) (hp : s.ph = .idle)
    (hw : s.stream = w :: ws) (hu : exec (decode s.esc w) { s with stream := ws } = .next u) :
    fedToEnd { u with ph := .drain } = fedToEnd s := by
  have stream : u.stream = ws := exec_stream hu
  have moves : u.moves = s.moves := (exec_moves hu :)
  have idle : (drain u).ph = .idle := by rw [drain_ph, exec_ph hu]; exact hp
  have finished : wordFinished { u with ph := .drain } = drain u := by rw [wordFinished_with_phase (by decide), ← idle]
  have run : runWord w (withPorts true [] [] s) = .next (withPorts true [] [] (drain u)) :=
    runWord_withPorts (runWord_of_exec (s := { s with stream := ws }) hF hu) true [] []
  rw [fedToEnd, fedToEnd, wordFinished_idle hp, finished, hw, List.cons_append, feed_cons, run, andThen_next, stream, moves]

/-- Out of reset the block's action leaves the ports a feeding environment drives and its schedule, and what the atomic procedure
will make of it all. -/
theorem BlockCase.fedToEnd_eq {s t : State} (action : BlockCase s t) (hr : s.rst = false) :
    t.frameReady = s.frameReady ∧ t.moves = s.moves ∧ fedToEnd t = fedToEnd s := by
  cases action with
  | reset high _ => rw [hr] at high; cases high
  | noWord _ _ _ _ ht => subst ht; exact ⟨rfl, rfl, rfl⟩
  | word _ hc hp w ws u hw hu ht =>
    subst ht
    exact ⟨(exec_frameReady hu :), (exec_moves hu :), fedToEnd_word hc.1 hp hw hu⟩
  | frame _ hc hp due ht =>
    subst ht
    have busy : s.ph ≠ .idle := by rw [hp]; decide
    refine ⟨rfl, rfl, fedToEnd_of_finished rfl ?_⟩
    rw [wordFinished_with_phase (by decide), wordFinished_busy busy, drain_due hc.1 due]
  | drained _ _ hp low ht =>
    subst ht
    have busy : s.ph ≠ .idle := by rw [hp]; decide
    refine ⟨rfl, rfl, fedToEnd_of_finished rfl ?_⟩
    rw [wordFinished_idle rfl, wordFinished_busy busy, drain_not_due low]
  | drawn _ _ hp _ ht =>
    subst ht
    have busy : s.ph ≠ .idle := by rw [hp]; decide
    refine ⟨rfl, rfl, fedToEnd_of_finished rfl ?_⟩
    rw [wordFinished_with_phase (by decide), wordFinished_busy busy]
  | waiting _ _ _ _ ht => subst ht; exact ⟨rfl, rfl, rfl⟩

theorem Fed.step {s : State} {m : Move} {ms : List Move} (h : Fed s) (hm : s.moves = m :: ms) :
    ∃ t, step s = .next t ∧ t.moves = ms ∧ Fed t ∧ fedToEnd t = fedToEnd s := by
  obtain ⟨e, he, rest, fed, same⟩ := h.environment hm
  obtain ⟨t, ht⟩ := blockAction_total (.inl fed.config)
  have action := blockAction_cases ht
  obtain ⟨hr, hN, sampled⟩ := action.configuration
  obtain ⟨hF, _⟩ := sampled fed.rst
  obtain ⟨ready, moves, kept⟩ := action.fedToEnd_eq fed.rst
  refine ⟨t, (step_of_environment he).trans ht, moves.trans rest, ⟨hr.trans fed.rst, ?_, ?_, ?_⟩, kept.trans same⟩
  · rw [ConfigOk, hF, hN]
    exact fed.config
  · rw [moves]
    exact fed.feeding
  · rw [ready, moves]
    exact fed.ready

/-- The environment's moves run out, and then the block is undisturbed. -/
theorem Fed.runSteps_moves (ms : List Move) {s : State} (h : Fed s) (hm : s.moves = ms) :
    ∃ k t, runSteps k s = .next t ∧ Undisturbed t ∧ fedToEnd t = fedToEnd s := by
  induction ms generalizing s with
  | nil =>
    have done : levelAfter s.frameReady [] = true := hm ▸ h.ready
    exact ⟨0, s, rfl, ⟨h.rst, h.config, done, hm⟩, rfl⟩
  | cons m ms ih =>
    obtain ⟨u, hu, rest, fed, same⟩ := h.step hm
    obtain ⟨k, t, ht, undisturbed, kept⟩ := ih fed rest
    exact ⟨k + 1, t, by rw [runSteps_succ_of_step hu, ht], undisturbed, kept.trans same⟩

/-- The word in progress comes to its end. -/
theorem Undisturbed.runSteps_finish {s : State} (h : Undisturbed s) : ∃ k, runSteps k s = .next (wordFinished s) := by
  cases hp : s.ph with
  | idle => exact ⟨0, by rw [wordFinished_idle hp]; rfl⟩
  | drain =>
    rw [wordFinished_busy (by rw [hp]; decide)]
    exact ⟨_, runSteps_drain _ h hp rfl⟩
  | draw =>
    have drained := runSteps_drain _ (h.with_phase .drain) rfl rfl
    rw [drain_with_phase] at drained
    rw [wordFinished_busy (by rw [hp]; decide)]
    exact ⟨_, (runSteps_succ_of_step (step_draw_done h hp) _).trans drained⟩

theorem Undisturbed.wordFinished {s : State} (h : Undisturbed s) :
    Undisturbed (wordFinished s) ∧ (wordFinished s).ph = .idle ∧ (wordFinished s).stream = s.stream := by
  by_cases hp : s.ph = .idle
  · rw [wordFinished_idle hp]
    exact ⟨h, hp, rfl⟩
  · rw [wordFinished_busy hp]
    exact ⟨h.drain.with_phase .idle, rfl, drain_stream s⟩

/-- The offered words are run one after the other. -/
theorem Undisturbed.runSteps_stream (ws : List Word) {s t : State} (h : Undisturbed s) (hp : s.ph = .idle) (hw : s.stream = ws)
    (fed : feed ws (withPorts true [] [] s) = .next t) : ∃ k, runSteps k s = .next t := by
  induction ws generalizing s with
  | nil =>
    have rest : withPorts true [] [] s = s := by rw [withPorts, ← h.done, ← hw, ← h.still]
    rw [rest] at fed
    exact ⟨0, fed⟩
  | cons w ws ih =>
    obtain ⟨u, ⟨run, steps⟩, undisturbed, idle, stream⟩ := runSteps_word h hp hw
    have word : runWord w (withPorts true [] [] s) = .next (withPorts true [] [] u) := runWord_withPorts run true [] []
    rw [feed_cons, word, andThen_next] at fed
    obtain ⟨k, hk⟩ := ih undisturbed idle stream fed
    exact ⟨_ + k, by rw [runSteps_add, steps, andThen_next, hk]⟩

/-- Settles O20: the moves run out, the word in progress ends, and the words still offered are run; no step of it changes
`fedToEnd`. -/
theorem chunksAndDelaysDoNotMatter : Obligations.ChunksAndDelaysDoNotMatter := by
  intro s hr hc hp feeding ready
  obtain ⟨u, hu⟩ := feed_total (s.stream ++ deliveredWords s.moves) hc.1
  have whole : fedToEnd s = .next (withPorts true [] [] u) := by
    rw [fedToEnd, wordFinished_idle hp, feed_withPorts hu]
  obtain ⟨a, t, ht, undisturbed, same⟩ := Fed.runSteps_moves s.moves ⟨hr, hc, feeding, ready⟩ rfl
  obtain ⟨b, hb⟩ := undisturbed.runSteps_finish
  obtain ⟨finished, idle, stream⟩ := undisturbed.wordFinished
  rw [whole, fedToEnd, undisturbed.still, deliveredWords, List.append_nil] at same
  obtain ⟨c, hcs⟩ := finished.runSteps_stream t.stream idle stream same
  refine ⟨a + (b + c), u, hu, ?_⟩
  rw [runSteps_add, ht, andThen_next, runSteps_add, hb, andThen_next, hcs]
  rfl

end Sys2Proof.Machine
end
